-- ==== Sys2Proof/Word.lean ====
section
/-! DEFINITION. Word.lean: the value types the spec names (30_encoding.md section 1). Their bit
encodings are in Decode.lean and Machine/Operands.lean. -/

namespace Sys2Proof

/-- A byte: a dispatch word (R96), a frame byte (R92), a duration (R91). -/
abbrev Byte := BitVec 8

/-- A line level (R90). -/
inductive Level where
  | low
  | high
deriving DecidableEq, Repr, Inhabited

/-- The other level. -/
def Level.flip : Level → Level
  | .low => .high
  | .high => .low

/-- The attempt state machine's register STATE (R37, R94), its reserved code 3'b111 kept (R175). -/
inductive AttemptState where
  | idle
  | hsLow
  | hsHigh
  | sampling
  | decoding
  | success
  | failure
  | unused
deriving DecidableEq, Repr, Inhabited

/-- The register OUTCOME (R47, R93). -/
inductive DecodeOutcome where
  | none
  | success
  | incompleteFrame
  | checksumMismatch
deriving DecidableEq, Repr, Inhabited

/-- One TransitionObservation, a trace entry of 9 bits (R91). -/
structure Observation where
  resultingLevel : Level
  durationTicks : Byte
deriving DecidableEq, Repr, Inhabited

end Sys2Proof
end

