-- ==== Sys2Proof/Config.lean ====
section
/-! DEFINITION. Config.lean: what the spec leaves open. The OPEN parameters of R9 and the free values
are constants without a body: no proof can learn their value. -/

namespace Sys2Proof.Config

/-- `W_TS` − 1. -/
opaque wTsPred : Nat

/-- `W_TS`, the width in bits of `wallclock` and `CAPTURED_AT`: OPEN, at least 1 (R9, D16). -/
def wTs : Nat := wTsPred + 1

/-- `T_CLK` − 1, in an arbitrary unit of real time. -/
opaque tClkPred : Nat

/-- `T_US` / `T_CLK` − 1. -/
opaque tUsRatioPred : Nat

/-- `T_SAMPLE` / `T_CLK` − 1. -/
opaque tSampleRatioPred : Nat

/-- `T_CLK`, the period of `clk`: OPEN, greater than 0 (R9, D1). No rule of the step reads it. -/
def tClk : Nat := tClkPred + 1

/-- `T_US`, the real period between `us_tick` strobes: OPEN, a multiple of `T_CLK` (R9, D3). -/
def tUs : Nat := tClk * (tUsRatioPred + 1)

/-- `T_SAMPLE`, the real period between `sample_tick` strobes: OPEN, a multiple of `T_CLK` (R9, D4). -/
def tSample : Nat := tClk * (tSampleRatioPred + 1)

end Sys2Proof.Config

namespace Sys2Proof

/-- A timestamp, `W_TS` bits (R50). -/
abbrev Timestamp := BitVec Config.wTs

/-- The values of the input ports in one cycle (R30). `clk` is the step itself. -/
structure Inputs where
  rst : Bool
  start : Bool
  usTick : Bool
  sampleTick : Bool
  lineIn : Level
  wallclock : Timestamp
deriving DecidableEq, Repr, Inhabited

end Sys2Proof

namespace Sys2Proof.Config

/-- Free value: the inputs of a cycle that nothing else has decided (R11, R215; I3, I8, I9, I10; log 1). -/
opaque freeInputs : Nat → Inputs

/-- Free value: what entry `i` of TRACE holds when nothing has written it since reset (R41, R55, I5; log 4). -/
opaque freeTraceEntry : Nat → Observation

/-- Free value: TCNT where TCNT + 1 does not fit its 15 bits, at a given draw (I7; log 6). -/
opaque freeTcnt : Nat → BitVec 15

/-- Free value: CNT where CNT + 1 does not fit its 8 bits, at a given draw (I7; log 6). -/
opaque freeCnt : Nat → BitVec 8

end Sys2Proof.Config
end

