-- ==== Sys2Proof/Machine/Constants.lean ====
section
/-! DEFINITION. Machine/Constants.lean: the protocol constants of R7 and the counts of R8. -/

namespace Sys2Proof.Machine

/-- `REQ_LOW_MS`: the request LOW lasts 20 ms (R7). -/
def reqLowMs : Nat := 20

/-- `REQ_HIGH_US`: the request HIGH lasts 40 µs (R7). -/
def reqHighUs : Nat := 40

/-- `SAT_MAX`: the saturation value of the duration counter (R7). -/
def satMax : Nat := 255

/-- `TRACE_CAP`: the maximum number of observations in a trace (R7). -/
def traceCap : Nat := 85

/-- `PREAMBLE`: the number of leading observations the decoder discards (R7). -/
def preamble : Nat := 4

/-- `THRESH`: a duration greater than this decodes to 1 (R7). -/
def thresh : Nat := 16

/-- `FRAME_BITS` (R7). -/
def frameBits : Nat := 40

/-- `FRAME_BYTES` (R7). -/
def frameBytes : Nat := 5

/-- `N_REQ_LOW` = `REQ_LOW_MS` × 1000 = 20000 `us_tick` strobes (R8). -/
def nReqLow : Nat := reqLowMs * 1000

/-- `N_REQ_HIGH` = `REQ_HIGH_US` = 40 `us_tick` strobes (R8). -/
def nReqHigh : Nat := reqHighUs

/-- The real time of the request LOW, `N_REQ_LOW × T_US` (R253). -/
def requestLowTime : Nat := nReqLow * Config.tUs

/-- The real time of the request HIGH, `N_REQ_HIGH × T_US` (R253). -/
def requestHighTime : Nat := nReqHigh * Config.tUs

end Sys2Proof.Machine
end

