-- ==== Sys2Proof/Syntax.lean ====
section
/-! DEFINITION. Syntax.lean: the instructions, one constructor per row of spec/opcode_table.json. -/

namespace Sys2Proof

/-- The rule that one cycle runs (R98). The arguments are the bits of the dispatch word that the
row's pattern leaves untested (its letters), in the order of the word: no bit of a word is lost, and
no meaning reads one of them (R99). -/
inductive Instr where
  /-- `sss1tukc` (70_reset_and_hazards.md R240) -/
  | reset (state : AttemptState) (start usTick sampleTick cond : Bool)
  /-- `00001ukc` (40_pulse_sampler.md R121) -/
  | attemptRead (usTick sampleTick cond : Bool)
  /-- `00000ukc` (40_pulse_sampler.md R122) -/
  | idleWait (usTick sampleTick cond : Bool)
  /-- `0010t0kc` (40_pulse_sampler.md R123) -/
  | hsLowWait (start sampleTick cond : Bool)
  /-- `0010t1kc` (40_pulse_sampler.md R124) -/
  | hsLowTick (start sampleTick cond : Bool)
  /-- `0100t0kc` (40_pulse_sampler.md R125) -/
  | hsHighWait (start sampleTick cond : Bool)
  /-- `0100t1kc` (40_pulse_sampler.md R126) -/
  | hsHighTick (start sampleTick cond : Bool)
  /-- `0110tu0c` (40_pulse_sampler.md R127) -/
  | sampleWait (start usTick cond : Bool)
  /-- `0110tu11` (40_pulse_sampler.md R128) -/
  | sampleSame (start usTick : Bool)
  /-- `0110tu10` (40_pulse_sampler.md R129) -/
  | sampleChange (start usTick : Bool)
  /-- `1000tuk0` (41_frame_decoder.md R161) -/
  | decodeEntry (start usTick sampleTick : Bool)
  /-- `1000tuk1` (41_frame_decoder.md R162) -/
  | validate (start usTick sampleTick : Bool)
  /-- `1010tukc` (41_frame_decoder.md R166) -/
  | successDone (start usTick sampleTick cond : Bool)
  /-- `1100tukc` (41_frame_decoder.md R167) -/
  | failureDone (start usTick sampleTick cond : Bool)
  /-- `1110tukc` (41_frame_decoder.md R175) -/
  | unusedState (start usTick sampleTick cond : Bool)
deriving DecidableEq, Repr

end Sys2Proof
end

