-- ==== Sys2Proof/WellFormed.lean ====
section
/-! DEFINITION. WellFormed.lean: which instructions a cycle can select, given how `cond` is formed. -/

namespace Sys2Proof

/-- `cond` can be 1 only in SAMPLING and DECODING; it is 0 otherwise (R97). -/
def condAllowed (st : AttemptState) (cond : Bool) : Bool :=
  match st with
  | .sampling | .decoding => true
  | .idle | .hsLow | .hsHigh | .success | .failure | .unused => !cond

/-- The dispatch word of a well-formed instruction is one that R96 and R97 can form. The decoder
reads every word, ill-formed ones too (R99; log 8). -/
def Instr.WellFormed : Instr → Bool
  | .reset st _ _ _ c => condAllowed st c
  | .attemptRead _ _ c => condAllowed .idle c
  | .idleWait _ _ c => condAllowed .idle c
  | .hsLowWait _ _ c => condAllowed .hsLow c
  | .hsLowTick _ _ c => condAllowed .hsLow c
  | .hsHighWait _ _ c => condAllowed .hsHigh c
  | .hsHighTick _ _ c => condAllowed .hsHigh c
  | .sampleWait _ _ c => condAllowed .sampling c
  | .sampleSame _ _ => true
  | .sampleChange _ _ => true
  | .decodeEntry _ _ _ => true
  | .validate _ _ _ => true
  | .successDone _ _ _ c => condAllowed .success c
  | .failureDone _ _ _ c => condAllowed .failure c
  | .unusedState _ _ _ c => condAllowed .unused c

end Sys2Proof
end

