-- ==== Sys2Proof/Decode.lean ====
section
/-! DEFINITION. Decode.lean: the opcode table of R98, the decoder, and after it the encoder. -/

namespace Sys2Proof

/-- The 3-bit code of STATE (R94). -/
def AttemptState.code : AttemptState → BitVec 3
  | .idle => 0b000#3
  | .hsLow => 0b001#3
  | .hsHigh => 0b010#3
  | .sampling => 0b011#3
  | .decoding => 0b100#3
  | .success => 0b101#3
  | .failure => 0b110#3
  | .unused => 0b111#3

/-- The state a 3-bit code stands for (R94). -/
def AttemptState.ofCode (c : BitVec 3) : AttemptState :=
  if c = 0b000#3 then .idle
  else if c = 0b001#3 then .hsLow
  else if c = 0b010#3 then .hsHigh
  else if c = 0b011#3 then .sampling
  else if c = 0b100#3 then .decoding
  else if c = 0b101#3 then .success
  else if c = 0b110#3 then .failure
  else .unused

/-- The rows of the opcode table, in its order. -/
inductive Row where
  | reset
  | attemptRead
  | idleWait
  | hsLowWait
  | hsLowTick
  | hsHighWait
  | hsHighTick
  | sampleWait
  | sampleSame
  | sampleChange
  | decodeEntry
  | validate
  | successDone
  | failureDone
  | unusedState
deriving DecidableEq, Repr

/-- The whole table (R98). -/
def Row.all : List Row :=
  [.reset, .attemptRead, .idleWait, .hsLowWait, .hsLowTick, .hsHighWait, .hsHighTick, .sampleWait,
   .sampleSame, .sampleChange, .decodeEntry, .validate, .successDone, .failureDone, .unusedState]

/-- The column "mask" of R98: which bits the row tests. -/
def Row.mask : Row → Byte
  | .reset => 0x10#8
  | .attemptRead => 0xF8#8
  | .idleWait => 0xF8#8
  | .hsLowWait => 0xF4#8
  | .hsLowTick => 0xF4#8
  | .hsHighWait => 0xF4#8
  | .hsHighTick => 0xF4#8
  | .sampleWait => 0xF2#8
  | .sampleSame => 0xF3#8
  | .sampleChange => 0xF3#8
  | .decodeEntry => 0xF1#8
  | .validate => 0xF1#8
  | .successDone => 0xF0#8
  | .failureDone => 0xF0#8
  | .unusedState => 0xF0#8

/-- The column "match" of R98: the values of the tested bits. -/
def Row.matchBits : Row → Byte
  | .reset => 0x10#8
  | .attemptRead => 0x08#8
  | .idleWait => 0x00#8
  | .hsLowWait => 0x20#8
  | .hsLowTick => 0x24#8
  | .hsHighWait => 0x40#8
  | .hsHighTick => 0x44#8
  | .sampleWait => 0x60#8
  | .sampleSame => 0x63#8
  | .sampleChange => 0x62#8
  | .decodeEntry => 0x80#8
  | .validate => 0x81#8
  | .successDone => 0xA0#8
  | .failureDone => 0xC0#8
  | .unusedState => 0xE0#8

/-- `(word & mask) == match` (R96). -/
def Row.hits (r : Row) (w : Byte) : Bool := w &&& r.mask == r.matchBits

/-- The row whose pattern a word matches (R96). There is exactly one (R99). -/
def rowOf (w : Byte) : Option Row := Row.all.find? (fun r => r.hits w)

/-- The field `STATE` of a dispatch word, bits 7:5 (R96). -/
def stateField (w : Byte) : AttemptState := AttemptState.ofCode (w.extractLsb' 5 3)

/-- The bit `start`, bit 3 (R96). -/
def startField (w : Byte) : Bool := w.getLsbD 3

/-- The bit `us_tick`, bit 2 (R96). -/
def usTickField (w : Byte) : Bool := w.getLsbD 2

/-- The bit `sample_tick`, bit 1 (R96). -/
def sampleTickField (w : Byte) : Bool := w.getLsbD 1

/-- The bit `cond`, bit 0 (R96). -/
def condField (w : Byte) : Bool := w.getLsbD 0

/-- The instruction of a row, with the bits its pattern leaves untested. -/
def Row.build (r : Row) (w : Byte) : Instr :=
  match r with
  | .reset => .reset (stateField w) (startField w) (usTickField w) (sampleTickField w) (condField w)
  | .attemptRead => .attemptRead (usTickField w) (sampleTickField w) (condField w)
  | .idleWait => .idleWait (usTickField w) (sampleTickField w) (condField w)
  | .hsLowWait => .hsLowWait (startField w) (sampleTickField w) (condField w)
  | .hsLowTick => .hsLowTick (startField w) (sampleTickField w) (condField w)
  | .hsHighWait => .hsHighWait (startField w) (sampleTickField w) (condField w)
  | .hsHighTick => .hsHighTick (startField w) (sampleTickField w) (condField w)
  | .sampleWait => .sampleWait (startField w) (usTickField w) (condField w)
  | .sampleSame => .sampleSame (startField w) (usTickField w)
  | .sampleChange => .sampleChange (startField w) (usTickField w)
  | .decodeEntry => .decodeEntry (startField w) (usTickField w) (sampleTickField w)
  | .validate => .validate (startField w) (usTickField w) (sampleTickField w)
  | .successDone => .successDone (startField w) (usTickField w) (sampleTickField w) (condField w)
  | .failureDone => .failureDone (startField w) (usTickField w) (sampleTickField w) (condField w)
  | .unusedState => .unusedState (startField w) (usTickField w) (sampleTickField w) (condField w)

/-- Why a sequence of bytes holds no dispatch word. -/
inductive DecodeError where
  /-- There is no byte: a dispatch word is always 8 bits (R101). -/
  | truncated
  /-- No row matches the word. It never happens: the table is complete (R99). -/
  | noRow (w : Byte)
deriving DecidableEq, Repr

/-- The decoder: one dispatch word is one byte (R101); the rest of the bytes is handed back. -/
def decode : List Byte → Except DecodeError (Instr × List Byte)
  | [] => .error .truncated
  | w :: rest =>
    match rowOf w with
    | some r => .ok (r.build w, rest)
    | none => .error (.noRow w)

/-- The instruction the decoder reads from a table word of `nbits` bits. A dispatch word has exactly
8 bits (R101), so no other width holds one. -/
def decodeTableWord (nbits w : Nat) : Option Instr :=
  if nbits = 8 then
    match decode [BitVec.ofNat 8 w] with
    | .ok (i, _) => some i
    | .error _ => none
  else none

/-- The dispatch word as the concatenation of its fields, most significant first (R96). -/
def packWord (st : AttemptState) (rst start usTick sampleTick cond : Bool) : Byte :=
  st.code ++ BitVec.ofBool rst ++ BitVec.ofBool start ++ BitVec.ofBool usTick
    ++ BitVec.ofBool sampleTick ++ BitVec.ofBool cond

/-- The encoder, written from the column "pattern" of R98: bits 7 down to 0. -/
def encodeWord : Instr → Byte
  | .reset s t u k c => packWord s true t u k c
  | .attemptRead u k c => packWord .idle false true u k c
  | .idleWait u k c => packWord .idle false false u k c
  | .hsLowWait t k c => packWord .hsLow false t false k c
  | .hsLowTick t k c => packWord .hsLow false t true k c
  | .hsHighWait t k c => packWord .hsHigh false t false k c
  | .hsHighTick t k c => packWord .hsHigh false t true k c
  | .sampleWait t u c => packWord .sampling false t u false c
  | .sampleSame t u => packWord .sampling false t u true true
  | .sampleChange t u => packWord .sampling false t u true false
  | .decodeEntry t u k => packWord .decoding false t u k false
  | .validate t u k => packWord .decoding false t u k true
  | .successDone t u k c => packWord .success false t u k c
  | .failureDone t u k c => packWord .failure false t u k c
  | .unusedState t u k c => packWord .unused false t u k c

/-- The words of an instruction: one byte (R101). -/
def encode (i : Instr) : List Byte := [encodeWord i]

/-- The row of the table an instruction belongs to. -/
def Instr.row : Instr → Row
  | .reset _ _ _ _ _ => .reset
  | .attemptRead _ _ _ => .attemptRead
  | .idleWait _ _ _ => .idleWait
  | .hsLowWait _ _ _ => .hsLowWait
  | .hsLowTick _ _ _ => .hsLowTick
  | .hsHighWait _ _ _ => .hsHighWait
  | .hsHighTick _ _ _ => .hsHighTick
  | .sampleWait _ _ _ => .sampleWait
  | .sampleSame _ _ => .sampleSame
  | .sampleChange _ _ => .sampleChange
  | .decodeEntry _ _ _ => .decodeEntry
  | .validate _ _ _ => .validate
  | .successDone _ _ _ _ => .successDone
  | .failureDone _ _ _ _ => .failureDone
  | .unusedState _ _ _ _ => .unusedState

end Sys2Proof
end

