-- ==== Sys2Proof/Machine/State.lean ====
section
/-! DEFINITION. Machine/State.lean: everything the spec gives the machine, as plain data (10_state.md). -/

namespace Sys2Proof.Machine

/-- The trace buffer: the entries written since reset, each with its index, indices strictly rising.
The unit of access is one whole entry (R70, R77). -/
abbrev Memory := List (Nat × Observation)

/-- The registers of 10_state.md section 3, then the input ports of the present cycle (R30), then the
model's own two fields (log 1, log 2). -/
structure State where
  /-- `STATE` (R37) -/
  state : AttemptState
  /-- `TCNT` (R38) -/
  tcnt : BitVec 15
  /-- `REF` (R39) -/
  ref : Level
  /-- `CNT` (R40) -/
  cnt : BitVec 8
  /-- `TRACE` (R41) -/
  trace : Memory
  /-- `TLEN` (R42) -/
  tlen : BitVec 7
  /-- `SAT` (R43) -/
  sat : Bool
  /-- `DI` (R44) -/
  di : BitVec 7
  /-- `NBITS` (R45) -/
  nbits : BitVec 6
  /-- `SHIFT` (R46) -/
  shift : BitVec 40
  /-- `OUTCOME` (R47) -/
  outcome : DecodeOutcome
  /-- `TIMEOUT` (R48) -/
  timeout : Bool
  /-- `HUM_INT` (R49) -/
  humInt : BitVec 8
  /-- `HUM_FRAC` (R49) -/
  humFrac : BitVec 8
  /-- `TEMP_INT` (R49) -/
  tempInt : BitVec 8
  /-- `TEMP_FRAC` (R49) -/
  tempFrac : BitVec 8
  /-- `CAPTURED_AT` (R50) -/
  capturedAt : Timestamp
  /-- The values of the input ports in the present cycle (R30). -/
  inputs : Inputs
  /-- The model's own: inputs of coming cycles that are already decided, nearest first. -/
  stimulus : List Inputs
  /-- The model's own: a counter of clock edges, from which free values are drawn. -/
  draws : Nat
deriving DecidableEq, Repr

/-- How the model stops with a fault. The hardware has no fault (R204). -/
inductive Fault where
  /-- TRACE has no such index (R70). Raised by SAMPLE_CHANGE with TLEN ≥ 85 and by DECODE_ENTRY with
  DI ≥ 85, in states no run from reset reaches. Safe: the model stops where nothing is specified (log 5). -/
  | traceIndexOutOfRange (index : Nat)
deriving DecidableEq, Repr

/-- Why the model refuses to go on. -/
inductive Refusal where
  /-- An instruction without a meaning, by its mnemonic. Raised by a refused arm of exec; there is none. Safe. -/
  | notModelled (mnemonic : String)
  /-- The decoder found no instruction. Raised by the step; it never happens (R99). Safe. -/
  | undecodable (error : DecodeError)
deriving DecidableEq, Repr

/-- The machine right after reset: the table of R55. TRACE is unspecified, so nothing is listed (log 4).
The first cycle's inputs are a free draw (log 2). -/
def State.reset : State where
  state := .idle
  tcnt := 0#15
  ref := .high
  cnt := 0#8
  trace := []
  tlen := 0#7
  sat := false
  di := 0#7
  nbits := 0#6
  shift := 0#40
  outcome := .none
  timeout := false
  humInt := 0x00#8
  humFrac := 0x00#8
  tempInt := 0x00#8
  tempFrac := 0x00#8
  capturedAt := 0#Config.wTs
  inputs := Config.freeInputs 0
  stimulus := []
  draws := 1

end Sys2Proof.Machine
end

