-- ==== Sys2Proof/Machine/Operands.lean ====
section
/-! DEFINITION. Machine/Operands.lean: what the rules' operands are: the pure functions of the decoder
(R160, R163), the encodings of values (R91, R93), the dispatch word (R96, R97), incremented counters. -/

namespace Sys2Proof.Machine

/-- HIGH is 1 and LOW is 0 (R90). -/
def levelBit : Level → Bool
  | .low => false
  | .high => true

/-- The level a bit stands for (R90). -/
def levelOfBit : Bool → Level
  | false => .low
  | true => .high

/-- The 9 bits of a trace entry, `{resulting_level, duration_ticks}` (R91). -/
def observationBits (e : Observation) : BitVec 9 :=
  BitVec.ofBool (levelBit e.resultingLevel) ++ e.durationTicks

/-- The trace entry that 9 bits stand for (R91). -/
def observationOfBits (b : BitVec 9) : Observation where
  resultingLevel := levelOfBit (b.getLsbD 8)
  durationTicks := b.extractLsb' 0 8

/-- The 2-bit code of OUTCOME (R93). -/
def outcomeCode : DecodeOutcome → BitVec 2
  | .none => 0b00#2
  | .success => 0b01#2
  | .incompleteFrame => 0b10#2
  | .checksumMismatch => 0b11#2

/-- Trace entry `i` carries a data bit (R160). -/
def considered (i : Nat) : Bool := decide (preamble ≤ i ∧ (i - preamble) % 2 = 0)

/-- The bit a duration decodes to (R160): `>`, not `>=`. -/
def classify (d : Byte) : Bool := decide (thresh < d.toNat)

/-- `{SHIFT[38:0], b}`: the new bit enters at bit 0 (R161). -/
def shiftIn (s : BitVec 40) (b : Bool) : BitVec 40 := s.extractLsb' 0 39 ++ BitVec.ofBool b

/-- `byte(k, s) = s[39 − 8k : 32 − 8k]`, for `k` = 0 to 4 (R163). -/
def frameByte (k : Nat) (s : BitVec 40) : Byte := s.extractLsb' (32 - 8 * k) 8

/-- The bit `cond` of the dispatch word (R97). -/
def condBit (s : State) : Bool :=
  match s.state with
  | .sampling => decide (s.inputs.lineIn = s.ref)
  | .decoding => decide (s.di = s.tlen)
  | .idle | .hsLow | .hsHigh | .success | .failure | .unused => false

/-- The dispatch word of the present cycle (R96). -/
def dispatchWord (s : State) : Byte :=
  packWord s.state s.inputs.rst s.inputs.start s.inputs.usTick s.inputs.sampleTick (condBit s)

/-- The bytes the present cycle's rule is decoded from: the dispatch word alone (R96, R101). -/
def fetchBytes (s : State) : List Byte := [dispatchWord s]

/-- TCNT + 1. Where it does not fit 15 bits the spec states no value: a free one (I7; log 6). -/
def tcntPlusOne (s : State) : BitVec 15 :=
  if s.tcnt.toNat + 1 < 2 ^ 15 then s.tcnt + 1#15 else Config.freeTcnt s.draws

/-- CNT + 1. Where it does not fit 8 bits the spec states no value: a free one (I7; log 6). -/
def cntPlusOne (s : State) : BitVec 8 :=
  if s.cnt.toNat + 1 < 2 ^ 8 then s.cnt + 1#8 else Config.freeCnt s.draws

end Sys2Proof.Machine
end

