-- ==== Sys2Proof/Machine/Flags.lean ====
section
/-! DEFINITION. Machine/Flags.lean: how the status bits are computed (R52): OUTCOME, through the
checksum validator (R164). SAT and TIMEOUT are plain copies and stand in the operations that write them. -/

namespace Sys2Proof.Machine

/-- The sum of frame bytes 0 to 3, exactly: 0 to 1020 (R164). -/
def payloadSum (s : BitVec 40) : Nat :=
  (frameByte 0 s).toNat + (frameByte 1 s).toNat + (frameByte 2 s).toNat + (frameByte 3 s).toNat

/-- `checksum_ok(s)`: byte 4 is that sum modulo 256 (R164). -/
def checksumOk (s : BitVec 40) : Bool := decide ((frameByte 4 s).toNat = payloadSum s % 256)

/-- The outcome VALIDATE writes: the bit count first, then the checksum (R162, R206). -/
def validationOutcome (nbits : BitVec 6) (shift : BitVec 40) : DecodeOutcome :=
  if nbits.toNat < frameBits then .incompleteFrame
  else if checksumOk shift then .success
  else .checksumMismatch

end Sys2Proof.Machine
end

