-- ==== Sys2Proof/Machine/Ops.lean ====
section
/-! DEFINITION. Machine/Ops.lean: the named operations over the trace buffer and the registers. There is
no exception to take and none to return from (R15, R204, R205, R208). -/

namespace Sys2Proof.Machine

/-! ### The trace buffer (20_memory.md section 1) -/

/-- The entry written at index `a` since reset, if one was. -/
def Memory.lookup : Memory → Nat → Option Observation
  | [], _ => none
  | (b, f) :: m, a => if a = b then some f else Memory.lookup m a

/-- `TraceRead(a)` (R15, R72): what was written there; else the entry is unspecified, a free value (I5; log 4). -/
def Memory.read (m : Memory) (a : Nat) : Observation :=
  (Memory.lookup m a).getD (Config.freeTraceEntry a)

/-- `TraceWrite(a, e)` (R15, R71), keeping indices strictly rising. -/
def Memory.write : Memory → Nat → Observation → Memory
  | [], a, e => [(a, e)]
  | (b, f) :: m, a, e =>
    if a < b then (a, e) :: (b, f) :: m
    else if a = b then (a, e) :: m
    else (b, f) :: Memory.write m a e

/-- The canonical form: indices strictly rising, all of them in 0 to 84 (R70). What an unwritten index
reads as is not known, so no entry equals it (log 4). -/
abbrev Memory.wf (m : Memory) : Prop :=
  (m.map Prod.fst).Pairwise (· < ·) ∧ ∀ c ∈ m, c.1 < traceCap

/-- Access to TRACE at an index: an index past 84 does not exist (R70; log 5). -/
def withTraceIndex (i : Nat) (after : State) : Host.Outcome State Fault Refusal :=
  if i < traceCap then .next after else .fault (.traceIndexOutOfRange i)

/-! ### Register writes: each names what it writes; every other register keeps its value (R14) -/

/-- `STATE <- st`. -/
def State.goto (s : State) (st : AttemptState) : State := { s with state := st }

/-- `TCNT <- t`. -/
def State.setTcnt (s : State) (t : BitVec 15) : State := { s with tcnt := t }

/-- `CNT <- c`. -/
def State.setCnt (s : State) (c : BitVec 8) : State := { s with cnt := c }

/-- The per-attempt registers at the start of an attempt (R51, R121). TRACE and the result registers are kept. -/
def State.beginAttempt (s : State) : State :=
  { s with
    state := .hsLow
    tcnt := 0#15
    ref := .high
    cnt := 0#8
    tlen := 0#7
    sat := false
    di := 0#7
    nbits := 0#6
    shift := 0#40 }

/-- The saturating sample: CNT to 255, SAT to 1, sampling ends, nothing is recorded (R128). -/
def State.saturate (s : State) : State :=
  { s with
    state := .decoding
    cnt := BitVec.ofNat 8 satMax
    sat := true }

/-- One transition to level `l` recorded at index TLEN; measuring starts again at `l` (R129). -/
def State.recordTransition (s : State) (l : Level) : State :=
  { s with
    trace := Memory.write s.trace s.tlen.toNat ⟨l, s.cnt⟩
    tlen := s.tlen + 1#7
    ref := l
    cnt := 0#8 }

/-- `SHIFT <- {SHIFT[38:0], b}`, `NBITS <- NBITS + 1` (R161). -/
def State.appendBit (s : State) (b : Bool) : State :=
  { s with
    shift := shiftIn s.shift b
    nbits := s.nbits + 1#6 }

/-- `DI <- DI + 1` (R161). -/
def State.nextEntry (s : State) : State := { s with di := s.di + 1#7 }

/-- The result registers, written together at one edge, and the done state entered (R162, R207). -/
def State.publish (s : State) (st : AttemptState) (o : DecodeOutcome)
    (hi hf ti tf : Byte) (at_ : Timestamp) : State :=
  { s with
    state := st
    outcome := o
    timeout := s.sat
    humInt := hi
    humFrac := hf
    tempInt := ti
    tempFrac := tf
    capturedAt := at_ }

/-- A failed attempt: every Reading register to 0 (R162, R207). -/
def State.publishFailure (s : State) (o : DecodeOutcome) : State :=
  s.publish .failure o 0x00#8 0x00#8 0x00#8 0x00#8 0#Config.wTs

/-- A successful attempt: frame bytes 0 to 3 and the wall clock of this cycle (R162). -/
def State.publishSuccess (s : State) : State :=
  s.publish .success .success (frameByte 0 s.shift) (frameByte 1 s.shift)
    (frameByte 2 s.shift) (frameByte 3 s.shift) s.inputs.wallclock

/-- Every register to its reset value; TRACE is not written (R240, R55). The ports and the model's own
fields are no registers. -/
def State.resetRegisters (s : State) : State :=
  { State.reset with
    trace := s.trace
    inputs := s.inputs
    stimulus := s.stimulus
    draws := s.draws }

/-! ### The clock edge -/

/-- The input ports take given values for the present cycle. -/
def State.withInputs (s : State) (x : Inputs) : State := { s with inputs := x }

/-- The next cycle's inputs arrive at the edge: the nearest decided ones, else a free draw (log 1). -/
def State.clockInputs (s : State) : State :=
  match s.stimulus with
  | x :: xs => { s with inputs := x, stimulus := xs, draws := s.draws + 1 }
  | [] => { s with inputs := Config.freeInputs s.draws, draws := s.draws + 1 }

/-- The edge that ends a cycle (R14, log 11). -/
def clockEdge : Host.Outcome State Fault Refusal → Host.Outcome State Fault Refusal
  | .next s => .next s.clockInputs
  | .fault f => .fault f
  | .refused r => .refused r

/-! ### Shared shapes of the handshake rules -/

/-- Count one `us_tick`; the `n`-th strobe of the state ends it (R124, R126). -/
def handshakeTick (n : Nat) (after : AttemptState) (s : State) : State :=
  if s.tcnt.toNat = n - 1 then (s.goto after).setTcnt 0#15 else s.setTcnt (tcntPlusOne s)

end Sys2Proof.Machine
end

