-- ==== Sys2Proof/Machine/Decoder.lean ====
section
/-! DEFINITION. Machine/Decoder.lean: the rules of the Frame Decoder (41_frame_decoder.md R161, R162, R166,
R167, R175). -/

namespace Sys2Proof.Machine

/-- DECODE_ENTRY (R161). -/
def execDecodeEntry (s : State) : Host.Outcome State Fault Refusal :=
  let e := Memory.read s.trace s.di.toNat
  withTraceIndex s.di.toNat
    (if considered s.di.toNat ∧ s.nbits.toNat < frameBits then
      (s.appendBit (classify e.durationTicks)).nextEntry
    else s.nextEntry)

/-- VALIDATE (R162). -/
def execValidate (s : State) : Host.Outcome State Fault Refusal :=
  match validationOutcome s.nbits s.shift with
  | .success => .next s.publishSuccess
  | o => .next (s.publishFailure o)

/-- SUCCESS_DONE (R166). -/
def execSuccessDone (s : State) : Host.Outcome State Fault Refusal := .next (s.goto .idle)

/-- FAILURE_DONE (R167). -/
def execFailureDone (s : State) : Host.Outcome State Fault Refusal := .next (s.goto .idle)

/-- UNUSED_STATE (R175). -/
def execUnusedState (s : State) : Host.Outcome State Fault Refusal := .next (s.goto .idle)

end Sys2Proof.Machine
end

