-- ==== Sys2Proof/Machine/Reset.lean ====
section
/-! DEFINITION. Machine/Reset.lean: the rule of the synchronous reset (70_reset_and_hazards.md R240). -/

namespace Sys2Proof.Machine

/-- RESET (R240). -/
def execReset (s : State) : Host.Outcome State Fault Refusal := .next s.resetRegisters

end Sys2Proof.Machine
end

