-- ==== Sys2Proof/Machine/Sampler.lean ====
section
/-! DEFINITION. Machine/Sampler.lean: the rules of the Pulse Sampler (40_pulse_sampler.md R121 to R129). -/

namespace Sys2Proof.Machine

/-- ATTEMPT_READ (R121). -/
def execAttemptRead (s : State) : Host.Outcome State Fault Refusal := .next s.beginAttempt

/-- IDLE_WAIT: no register changes (R122). -/
def execIdleWait (s : State) : Host.Outcome State Fault Refusal := .next s

/-- HS_LOW_WAIT: no register changes (R123). -/
def execHsLowWait (s : State) : Host.Outcome State Fault Refusal := .next s

/-- HS_LOW_TICK (R124). -/
def execHsLowTick (s : State) : Host.Outcome State Fault Refusal :=
  .next (handshakeTick nReqLow .hsHigh s)

/-- HS_HIGH_WAIT: no register changes (R125). -/
def execHsHighWait (s : State) : Host.Outcome State Fault Refusal := .next s

/-- HS_HIGH_TICK (R126). -/
def execHsHighTick (s : State) : Host.Outcome State Fault Refusal :=
  .next (handshakeTick nReqHigh .sampling s)

/-- SAMPLE_WAIT: no register changes (R127). -/
def execSampleWait (s : State) : Host.Outcome State Fault Refusal := .next s

/-- SAMPLE_SAME (R128). -/
def execSampleSame (s : State) : Host.Outcome State Fault Refusal :=
  if s.cnt.toNat = satMax - 1 then .next s.saturate else .next (s.setCnt (cntPlusOne s))

/-- SAMPLE_CHANGE (R129). -/
def execSampleChange (s : State) : Host.Outcome State Fault Refusal :=
  let s' := s.recordTransition s.inputs.lineIn
  withTraceIndex s.tlen.toNat
    (if s.tlen.toNat + 1 = traceCap then s'.goto .decoding else s')

end Sys2Proof.Machine
end

