-- ==== Sys2Proof/Machine/Dispatch.lean ====
section
/-! DEFINITION. Machine/Dispatch.lean: the meaning of each instruction, one arm per row of the opcode table. -/

namespace Sys2Proof.Machine

def exec (i : Instr) (s : State) : Host.Outcome State Fault Refusal :=
  match i with
  | .reset _ _ _ _ _ => Sys2Proof.Machine.execReset s
  | .attemptRead _ _ _ => Sys2Proof.Machine.execAttemptRead s
  | .idleWait _ _ _ => Sys2Proof.Machine.execIdleWait s
  | .hsLowWait _ _ _ => Sys2Proof.Machine.execHsLowWait s
  | .hsLowTick _ _ _ => Sys2Proof.Machine.execHsLowTick s
  | .hsHighWait _ _ _ => Sys2Proof.Machine.execHsHighWait s
  | .hsHighTick _ _ _ => Sys2Proof.Machine.execHsHighTick s
  | .sampleWait _ _ _ => Sys2Proof.Machine.execSampleWait s
  | .sampleSame _ _ => Sys2Proof.Machine.execSampleSame s
  | .sampleChange _ _ => Sys2Proof.Machine.execSampleChange s
  | .decodeEntry _ _ _ => Sys2Proof.Machine.execDecodeEntry s
  | .validate _ _ _ => Sys2Proof.Machine.execValidate s
  | .successDone _ _ _ _ => Sys2Proof.Machine.execSuccessDone s
  | .failureDone _ _ _ _ => Sys2Proof.Machine.execFailureDone s
  | .unusedState _ _ _ _ => Sys2Proof.Machine.execUnusedState s

end Sys2Proof.Machine
end

