-- ==== Sys2Proof/Machine/Fetch.lean ====
section
/-! DEFINITION. Machine/Fetch.lean: how a given dispatch word is made the present cycle's (log 3). -/

namespace Sys2Proof.Machine

/-- `cond` in SAMPLING comes from `line_in` (R97). -/
def State.lineForCond (s : State) (c : Bool) : State :=
  { s with inputs := { s.inputs with lineIn := if c then s.ref else s.ref.flip } }

/-- `cond` in DECODING comes from DI and TLEN (R97). For 1, DI moves to TLEN. For 0, where they are
equal, DI steps one entry back, or one entry is taken as recorded where there is none. -/
def State.indexForCond (s : State) (c : Bool) : State :=
  if c then { s with di := s.tlen }
  else if s.di ≠ s.tlen then s
  else if s.tlen = 0#7 then { s with tlen := 1#7 }
  else { s with di := s.tlen - 1#7 }

/-- The state and the inputs of the present cycle set so that its dispatch word is `w`. A word with
`cond` = 1 outside SAMPLING and DECODING is never formed (R97): there the bit stays 0, and the row
is the same (R99). -/
def State.selectWord (s : State) (w : Byte) : State :=
  let s1 : State :=
    { s with
      state := stateField w
      inputs :=
        { s.inputs with
          rst := w.getLsbD 4
          start := startField w
          usTick := usTickField w
          sampleTick := sampleTickField w } }
  match stateField w with
  | .sampling => s1.lineForCond (condField w)
  | .decoding => s1.indexForCond (condField w)
  | .idle | .hsLow | .hsHigh | .success | .failure | .unused => s1

end Sys2Proof.Machine
end

