-- ==== Sys2Proof/Machine/Step.lean ====
section
/-! DEFINITION. Machine/Step.lean: one step is one clock cycle (R11): the rule the dispatch word selects,
then the clock edge. -/

namespace Sys2Proof.Machine

/-- One clock cycle. -/
def step (s : State) : Host.Outcome State Fault Refusal :=
  match decode (fetchBytes s) with
  | .ok (i, _) => clockEdge (exec i s)
  | .error e => .refused (.undecodable e)

/-- The state with the dispatch word `w` made the present cycle's. A dispatch word has 8 bits (R101). -/
def State.withFetchWord (s : State) (_nbits w : Nat) : State := s.selectWord (BitVec.ofNat 8 w)

/-- One clock cycle with given values at the input ports. -/
def stepWith (x : Inputs) (s : State) : Host.Outcome State Fault Refusal := step (s.withInputs x)

end Sys2Proof.Machine
end

