-- ==== Sys2Proof/Machine/Ports.lean ====
section
/-! DEFINITION. Machine/Ports.lean: the output ports, functions of the registers alone (R31 to R34). -/

namespace Sys2Proof.Machine

/-- The output ports (R31). -/
structure Outputs where
  lineOe : Bool
  lineOut : Level
  busy : Bool
  done : Bool
  outcome : BitVec 2
  timeout : Bool
  humInt : BitVec 8
  humFrac : BitVec 8
  tempInt : BitVec 8
  tempFrac : BitVec 8
  capturedAt : Timestamp
deriving DecidableEq, Repr

/-- `line_oe` (R32). -/
def lineOe (s : State) : Bool := s.state == .hsLow || s.state == .hsHigh

/-- `line_out`: 0 in HS_LOW, else 1 (R32). -/
def lineOut (s : State) : Level := if s.state = .hsLow then .low else .high

/-- `busy` (R33). -/
def busy (s : State) : Bool := s.state != .idle

/-- `done` (R33). -/
def done (s : State) : Bool := s.state == .success || s.state == .failure

/-- All output ports (R31); the results come straight from registers (R34). -/
def outputs (s : State) : Outputs where
  lineOe := lineOe s
  lineOut := lineOut s
  busy := busy s
  done := done s
  outcome := outcomeCode s.outcome
  timeout := s.timeout
  humInt := s.humInt
  humFrac := s.humFrac
  tempInt := s.tempInt
  tempFrac := s.tempFrac
  capturedAt := s.capturedAt

/-- The level the core puts on the line: `line_out` in output mode, nothing when released (R32, R79). -/
def drivenLevel (s : State) : Option Level := if lineOe s then some (lineOut s) else none

end Sys2Proof.Machine
end

