-- ==== Sys2Proof/Machine/Stimulus.lean ====
section
/-! DEFINITION. Machine/Stimulus.lean: the stimulus and trace notation (R102 to R105): what the host and the
line do, cycle by cycle, as functions that give the inputs of each cycle. It stands above the step. -/

namespace Sys2Proof.Machine

/-- A configuration fixes the time base for every cycle number (R102). -/
structure TimeBase where
  usTick : Int → Bool
  sampleTick : Int → Bool

/-- Configuration T1: both strobes 1 in every cycle (R102). -/
def TimeBase.t1 : TimeBase := ⟨fun _ => true, fun _ => true⟩

/-- Strobes in the cycles divisible by `u` and by `k`. -/
def TimeBase.every (u k : Int) : TimeBase := ⟨fun n => n % u == 0, fun n => n % k == 0⟩

/-- A statement of the control stream (R103). -/
inductive ControlStmt where
  | rst
  | start
  | nop (n : Nat)
  | runToDone
  | wall (v : Timestamp)
deriving DecidableEq, Repr

/-- A statement of the line stream (R103). -/
inductive LineStmt where
  | line (l : Level) (n : Nat)
  | forever (l : Level)
deriving DecidableEq, Repr

/-- The level at the next sampling tick, and the stream after it; nothing once the stream has ended. -/
def nextLevel : List LineStmt → Option (Level × List LineStmt)
  | [] => none
  | .line _ 0 :: rest => nextLevel rest
  | .line l (n + 1) :: rest => some (l, .line l n :: rest)
  | .forever l :: rest => some (l, .forever l :: rest)

/-- What is left of a program, and the wall clock its last `WALL` set, if it had one. -/
structure Program where
  control : List ControlStmt
  line : List LineStmt
  wallclock : Option Timestamp
deriving DecidableEq, Repr

/-- `WALL v` takes no cycle, nor does `NOP 0` (R103). -/
def settle (w : Option Timestamp) : List ControlStmt → Option Timestamp × List ControlStmt
  | .wall v :: rest => settle (some v) rest
  | .nop 0 :: rest => settle w rest
  | c => (w, c)

/-- The control values of a cycle, `(rst, start)`, and the stream after it (R103). -/
def controlCycle (isDone : Bool) : List ControlStmt → Option ((Bool × Bool) × List ControlStmt)
  | .rst :: rest => some ((true, false), rest)
  | .start :: rest => some ((false, true), rest)
  | .nop (n + 1) :: rest => some ((false, false), .nop n :: rest)
  | .runToDone :: rest => some ((false, false), if isDone then rest else .runToDone :: rest)
  | .nop 0 :: _ => none
  | .wall _ :: _ => none
  | [] => none

/-- One cycle of a program: the inputs it gives at cycle `n` to the machine in state `s`. The line stream is
used up by sampling ticks alone: SAMPLING cycles with `sample_tick` = 1, an `RST` cycle there among them (R103).
DESIGN CHOICE: where a stream has ended, and for `wallclock` in every cycle before the first `WALL`, `free` decides
(log 13). From a `WALL v` on, `wallclock` is `v` in every cycle, also after the control stream has ended (R103). -/
def programInputs (tb : TimeBase) (n : Int) (free : Inputs) (p : Program) (s : State) : Inputs × Program :=
  let w := settle p.wallclock p.control
  let c := controlCycle (done s) w.2
  let ctl := (c.map Prod.fst).getD (free.rst, free.start)
  let tick := tb.sampleTick n
  let lv := nextLevel p.line
  let sampled := s.state == .sampling && tick
  (⟨ctl.1, ctl.2, tb.usTick n, tick, (lv.map Prod.fst).getD free.lineIn, w.1.getD free.wallclock⟩,
   ⟨(c.map Prod.snd).getD [], if sampled then (lv.map Prod.snd).getD [] else p.line, w.1⟩)

/-- `k` cycles of a program, from cycle number `n`. -/
def runProgram (tb : TimeBase) : Nat → Int → Program → State → Host.Outcome State Fault Refusal
  | 0, _, _, s => .next s
  | k + 1, n, p, s =>
    let xp := programInputs tb n (Config.freeInputs s.draws) p s
    match stepWith xp.1 s with
    | .next s' => runProgram tb k (n + 1) xp.2 s'
    | .fault f => .fault f
    | .refused r => .refused r

/-- `RUN H d` / `RUN L d`, not the first run: one entry with duration `d` (R104). -/
def runEntry (l : Level) (d : Nat) : List LineStmt := [.line l (d + 1)]

/-- `PREAMBLE` (R104). -/
def preambleStmts : List LineStmt :=
  [.line .high 20] ++ runEntry .low 40 ++ runEntry .high 40 ++ runEntry .low 25

/-- `SEND_BIT` (R104). -/
def sendBit (b : Bool) : List LineStmt := runEntry .high (if b then 35 else 8) ++ runEntry .low 25

/-- `SEND_BYTE`, most significant bit first (R104). -/
def sendByte (v : Byte) : List LineStmt :=
  ((List.range 8).map fun j => sendBit (v.getLsbD (7 - j))).flatten

/-- `RELEASE` (R104). -/
def release : List LineStmt := [.forever .high]

/-- The level of entry `i` of a trace (R130, R105). -/
def entryLevel (i : Nat) : Level := if i % 2 = 0 then .low else .high

/-- How sampling ended: the word `sat` or `cap` that follows a trace (R105). -/
inductive TraceEnd where
  | sat
  | cap
deriving DecidableEq, Repr

/-- How the recorded trace of a state ended (R105, R133). R105 gives no word for a trace whose sampling has not
ended, as in SAMPLING or after RESET; DESIGN CHOICE: there is none then (log 13). -/
def traceEnd (s : State) : Option TraceEnd :=
  if s.sat then some .sat else if s.tlen.toNat = traceCap then some .cap else none

/-- A trace given by its durations, from index `i` on (R105). -/
def traceOfDurations (i : Nat) : List Nat → List Observation
  | [] => []
  | d :: ds => ⟨entryLevel i, BitVec.ofNat 8 d⟩ :: traceOfDurations (i + 1) ds

/-- The same, as the contents of TRACE (R105). -/
def memoryOfDurations (i : Nat) : List Nat → Memory
  | [] => []
  | d :: ds => (i, ⟨entryLevel i, BitVec.ofNat 8 d⟩) :: memoryOfDurations (i + 1) ds

end Sys2Proof.Machine
end

