-- ==== Sys2Proof/Machine/FrameFunction.lean ====
section
/-! DEFINITION. Machine/FrameFunction.lean: the whole Frame Decoder as one pure function of a trace (R168). -/

namespace Sys2Proof.Machine

/-- The result of `Decode`: `Success(Reading)` without its timestamp, or `Failure(reason)` (R168). -/
inductive DecodeResult where
  | success (humInt humFrac tempInt tempFrac : Byte)
  | incompleteFrame
  | checksumMismatch
deriving DecidableEq, Repr

/-- The bits of the considered entries, in index order, from index `i` on (R168). -/
def consideredBits (i : Nat) : List Observation → List Bool
  | [] => []
  | e :: t =>
    if considered i then classify e.durationTicks :: consideredBits (i + 1) t
    else consideredBits (i + 1) t

/-- The bits `Decode` uses: at most 40 (R168, D10). -/
def frameBitsOf (t : List Observation) : List Bool := (consideredBits 0 t).take frameBits

/-- `b[k]`, the sum over j in 0..7 of bits[8k + j] × 2^(7 − j) (R168). -/
def byteOfBits (bits : List Bool) (k : Nat) : Nat :=
  ((List.range 8).map fun j => (bits.getD (8 * k + j) false).toNat * 2 ^ (7 - j)).sum

/-- `Decode(T)` (R168). -/
def decodeTrace (t : List Observation) : DecodeResult :=
  let bits := frameBitsOf t
  if bits.length < frameBits then .incompleteFrame
  else if byteOfBits bits 4
      = (byteOfBits bits 0 + byteOfBits bits 1 + byteOfBits bits 2 + byteOfBits bits 3) % 256 then
    .success (BitVec.ofNat 8 (byteOfBits bits 0)) (BitVec.ofNat 8 (byteOfBits bits 1))
      (BitVec.ofNat 8 (byteOfBits bits 2)) (BitVec.ofNat 8 (byteOfBits bits 3))
  else .checksumMismatch

/-- The outcome a result is shown as (R93). -/
def DecodeResult.outcome : DecodeResult → DecodeOutcome
  | .success _ _ _ _ => .success
  | .incompleteFrame => .incompleteFrame
  | .checksumMismatch => .checksumMismatch

end Sys2Proof.Machine
end

