-- ==== Sys2Proof/Safety.lean ====
section
/-! DEFINITION. Safety.lean: what claims are stated in: runs and the inputs they are fed, the trace of an
attempt, the invariant of the registers, what two attempts share. -/

namespace Sys2Proof.Machine

/-! ### Runs and inputs -/

/-- `n` clock cycles, stopping at the first fault or refusal: `Host.Core.run` of `core`
(Laws/Run.lean, `core_run_eq_run`). -/
def run : Nat → State → Host.Outcome State Fault Refusal
  | 0, s => .next s
  | n + 1, s =>
    match step s with
    | .next t => run n t
    | .fault f => .fault f
    | .refused r => .refused r

/-- The inputs of the present cycle and the next ones are `xs`: they are already decided. -/
def Feeds (s : State) (xs : List Inputs) : Prop := xs <+: s.inputs :: s.stimulus

/-- No cycle of `xs` asserts `rst`. -/
def NoReset (xs : List Inputs) : Prop := ∀ x ∈ xs, x.rst = false

/-- Every cycle of `xs` has both strobes: configuration T1 (R102). -/
def BothStrobes (xs : List Inputs) : Prop := ∀ x ∈ xs, x.usTick = true ∧ x.sampleTick = true

/-- The number of `us_tick` strobes in `xs`. -/
def usStrobes (xs : List Inputs) : Nat := xs.countP (·.usTick)

/-- The number of `sample_tick` strobes in `xs`. -/
def sampleStrobes (xs : List Inputs) : Nat := xs.countP (·.sampleTick)

/-- The levels looked at in a stretch of SAMPLING fed with `xs` (R103). -/
def samples (xs : List Inputs) : List Level := (xs.filter (·.sampleTick)).map (·.lineIn)

/-! ### The trace of an attempt and its bits -/

/-- The PulseTrace, `TRACE[0 .. TLEN−1]` (R41). -/
def pulseTrace (s : State) : List Observation := (List.range s.tlen.toNat).map (Memory.read s.trace)

/-- The level entry `i` of a trace has: LOW if `i` is even, HIGH if it is odd (R130). -/
def alternating (i : Nat) : Level := if i % 2 = 0 then .low else .high

/-- The number of considered indices below `n` (R169). -/
def consideredBelow (n : Nat) : Nat := (List.range n).countP considered

/-- A shift register that these bits went into, the latest at bit 0 (R169). -/
def shiftOf (bits : List Bool) : BitVec 40 := bits.foldl shiftIn 0#40

/-! ### The registers a result is read from -/

/-- The result registers, the persistent ones of R51. -/
structure Result where
  outcome : DecodeOutcome
  timeout : Bool
  humInt : Byte
  humFrac : Byte
  tempInt : Byte
  tempFrac : Byte
  capturedAt : Timestamp
deriving DecidableEq, Repr

/-- The result registers of a state. -/
def resultOf (s : State) : Result where
  outcome := s.outcome
  timeout := s.timeout
  humInt := s.humInt
  humFrac := s.humFrac
  tempInt := s.tempInt
  tempFrac := s.tempFrac
  capturedAt := s.capturedAt

/-- What VALIDATE leaves for a result of `Decode`, given SAT and the wall clock (R162, R169). -/
def resultFor (d : DecodeResult) (sat : Bool) (now : Timestamp) : Result :=
  match d with
  | .success hi hf ti tf => ⟨.success, sat, hi, hf, ti, tf, now⟩
  | .incompleteFrame => ⟨.incompleteFrame, sat, 0, 0, 0, 0, 0⟩
  | .checksumMismatch => ⟨.checksumMismatch, sat, 0, 0, 0, 0, 0⟩

/-- Every register but TRACE has its reset value (R55); inputs and TRACE are any. -/
def ResetValues (s : State) : Prop := s = s.resetRegisters

/-! ### Invariants -/

/-- The invariants R56 lists. -/
structure ReachableValues (s : State) : Prop where
  tlen_le : s.tlen.toNat ≤ traceCap
  di_le : s.di.toNat ≤ s.tlen.toNat
  nbits_le : s.nbits.toNat ≤ frameBits
  cnt_le : s.cnt.toNat ≤ satMax
  cnt_sat : s.cnt.toNat = satMax → s.sat = true
  tcnt_low : s.state = .hsLow → s.tcnt.toNat < nReqLow
  tcnt_high : s.state = .hsHigh → s.tcnt.toNat < nReqHigh
  legal : s.state ≠ .unused

/-- The invariant of the core: R56, with what the rules keep beside it. -/
structure Inv (s : State) : Prop where
  values : ReachableValues s
  /-- TRACE keeps its canonical form. -/
  trace_wf : Memory.wf s.trace
  /-- Every entry below TLEN was written (R73). -/
  written : ∀ i < s.tlen.toNat, (Memory.lookup s.trace i).isSome
  /-- Levels alternate, starting with LOW (R130). -/
  levels : ∀ i < s.tlen.toNat, (Memory.read s.trace i).resultingLevel = alternating i
  /-- A recorded duration is 0 to 254 (R132). -/
  durations : ∀ i < s.tlen.toNat, (Memory.read s.trace i).durationTicks.toNat < satMax
  /-- The handshake leaves what ATTEMPT_READ set (R126). -/
  handshake : s.state = .hsLow ∨ s.state = .hsHigh → s.ref = .high ∧ s.cnt = 0#8 ∧ s.tlen = 0#7
  /-- Before DECODING nothing is saturated and nothing is decoded. -/
  undecoded : s.state = .hsLow ∨ s.state = .hsHigh ∨ s.state = .sampling →
    s.sat = false ∧ s.di = 0#7 ∧ s.nbits = 0#6 ∧ s.shift = 0#40
  /-- In SAMPLING there is room for an entry, and REF is the level the last entry went to (R129, R130). -/
  sampling : s.state = .sampling → s.tlen.toNat < traceCap ∧ s.ref = (alternating s.tlen.toNat).flip
  /-- Sampling ended by the cap or by saturation (R133). -/
  ended : s.state = .decoding →
    (s.tlen.toNat = traceCap ∧ s.sat = false) ∨ (s.tlen.toNat < traceCap ∧ s.sat = true)
  /-- The bits decoded so far (R169). -/
  decoded : s.state = .decoding →
    s.nbits.toNat = min frameBits (consideredBelow s.di.toNat) ∧
    s.shift = shiftOf (frameBitsOf ((pulseTrace s).take s.di.toNat))
  /-- The done state goes with the outcome (R166, R167). -/
  done_success : s.state = .success → s.outcome = .success
  done_failure : s.state = .failure → s.outcome = .incompleteFrame ∨ s.outcome = .checksumMismatch
  /-- Without a success the Reading registers are 0 (R49, R50, R55). -/
  no_reading : s.outcome ≠ .success →
    s.humInt = 0 ∧ s.humFrac = 0 ∧ s.tempInt = 0 ∧ s.tempFrac = 0 ∧ s.capturedAt = 0

/-! ### What two attempts share (R243) -/

/-- Two states agree on everything an attempt reads: the per-attempt registers (R51), the trace entries
below TLEN, the inputs and the model's own fields. -/
structure SameAttempt (s t : State) : Prop where
  state : s.state = t.state
  tcnt : s.tcnt = t.tcnt
  ref : s.ref = t.ref
  cnt : s.cnt = t.cnt
  tlen : s.tlen = t.tlen
  entries : pulseTrace s = pulseTrace t
  sat : s.sat = t.sat
  di : s.di = t.di
  nbits : s.nbits = t.nbits
  shift : s.shift = t.shift
  inputs : s.inputs = t.inputs
  stimulus : s.stimulus = t.stimulus
  draws : s.draws = t.draws

end Sys2Proof.Machine
end

