-- ==== Sys2Proof/Certificates/Slice0/Obligations.lean ====
section
/-! DEFINITION. Certificates/Slice0/Obligations.lean: the statements for the provers, from the spec's numbered
rules. Numbers stand as the spec writes them, so that a wrong constant of the model is refuted. -/

open Sys2Proof Sys2Proof.Machine

/-! ### Encodings and the decoder -/

/-- Decoding the word of any instruction gives it back with every untested bit, and takes exactly one byte
(R96, R101). -/
def Obligations.DecodeInvertsEncode : Prop :=
  ∀ (i : Instr) (rest : List Byte), decode (encode i ++ rest) = .ok (i, rest)

/-- A word that decodes to an instruction is the word that instruction is encoded as: no two words share an
instruction (R96, R99). -/
def Obligations.EncodeInvertsDecode : Prop :=
  ∀ (bytes rest : List Byte) (i : Instr), decode bytes = .ok (i, rest) → bytes = encode i ++ rest

/-- R99: each of the 256 words matches exactly one row; RESET takes every word with bit 4 set, the other rows the
words with bit 4 clear; a bit a row does not test has no effect on the rule. -/
def Obligations.OpcodeTableIsCompleteAndUnambiguous : Prop :=
  (∀ w : Byte, ∃ r, w &&& r.mask = r.matchBits ∧ ∀ q : Row, w &&& q.mask = q.matchBits → q = r) ∧
  (∀ w : Byte, rowOf w = some .reset ↔ w.getLsbD 4 = true) ∧
  (∀ (w v : Byte) (i j : Instr) (s : State), rowOf w = rowOf v → decode [w] = .ok (i, []) →
    decode [v] = .ok (j, []) → exec i s = exec j s)

/-- Words written out from the patterns of R98 and the table of 95_test_vectors.md 2.1 decode to the instruction
they stand for. -/
def Obligations.DecoderReadsTheSpecsWords : Prop :=
  decode [0b00001111#8] = .ok (.attemptRead true true true, []) ∧
  decode [0b00000000#8] = .ok (.idleWait false false false, []) ∧
  decode [0b01111110#8] = .ok (.reset .sampling true true true false, []) ∧
  decode [0b00101100#8] = .ok (.hsLowTick true false false, []) ∧
  decode [0b01000010#8] = .ok (.hsHighWait false true false, []) ∧
  decode [0b01100001#8] = .ok (.sampleWait false false true, []) ∧
  decode [0b01100010#8] = .ok (.sampleChange false false, []) ∧
  decode [0b01101111#8] = .ok (.sampleSame true true, []) ∧
  decode [0b10000110#8] = .ok (.decodeEntry false true true, []) ∧
  decode [0b10001111#8] = .ok (.validate true true true, []) ∧
  decode [0b11001000#8] = .ok (.failureDone true false false false, []) ∧
  decode [0b11100000#8] = .ok (.unusedState false false false false, []) ∧
  decode [] = .error .truncated

/-- R97: the rule for cond; with it the places of the dispatch word's fields, and that only words of well-formed
instructions are formed. -/
def Obligations.DispatchWordIsFormedFromStateAndInputs : Prop :=
  ∀ s : State,
    (dispatchWord s).extractLsb' 5 3 = s.state.code ∧
    (dispatchWord s).getLsbD 4 = s.inputs.rst ∧
    (dispatchWord s).getLsbD 3 = s.inputs.start ∧
    (dispatchWord s).getLsbD 2 = s.inputs.usTick ∧
    (dispatchWord s).getLsbD 1 = s.inputs.sampleTick ∧
    ((dispatchWord s).getLsbD 0 = true ↔
      (s.state = .sampling ∧ s.inputs.lineIn = s.ref) ∨ (s.state = .decoding ∧ s.di = s.tlen)) ∧
    ∃ i, decode (fetchBytes s) = .ok (i, []) ∧ i.WellFormed = true

/-- R98: the opcode map in prose, its table of match and mask, and the fixed successors of each state. -/
def Obligations.DispatchSelectsTheRowOfTheOpcodeMap : Prop :=
  (∀ s : State,
    (s.inputs.rst = true → rowOf (dispatchWord s) = some .reset) ∧
    (s.inputs.rst = false →
      (s.state = .idle → rowOf (dispatchWord s) = some (if s.inputs.start then .attemptRead else .idleWait)) ∧
      (s.state = .hsLow → rowOf (dispatchWord s) = some (if s.inputs.usTick then .hsLowTick else .hsLowWait)) ∧
      (s.state = .hsHigh →
        rowOf (dispatchWord s) = some (if s.inputs.usTick then .hsHighTick else .hsHighWait)) ∧
      (s.state = .sampling → s.inputs.sampleTick = false → rowOf (dispatchWord s) = some .sampleWait) ∧
      (s.state = .sampling → s.inputs.sampleTick = true →
        rowOf (dispatchWord s) = some (if s.inputs.lineIn = s.ref then .sampleSame else .sampleChange)) ∧
      (s.state = .decoding →
        rowOf (dispatchWord s) = some (if s.di = s.tlen then .validate else .decodeEntry)) ∧
      (s.state = .success → rowOf (dispatchWord s) = some .successDone) ∧
      (s.state = .failure → rowOf (dispatchWord s) = some .failureDone) ∧
      (s.state = .unused → rowOf (dispatchWord s) = some .unusedState))) ∧
  (∀ s t : State, step s = .next t →
    (s.inputs.rst = true → t.state = .idle) ∧
    (s.inputs.rst = false →
      (s.state = .idle → t.state = .idle ∨ t.state = .hsLow) ∧
      (s.state = .hsLow → t.state = .hsLow ∨ t.state = .hsHigh) ∧
      (s.state = .hsHigh → t.state = .hsHigh ∨ t.state = .sampling) ∧
      (s.state = .sampling → t.state = .sampling ∨ t.state = .decoding) ∧
      (s.state = .decoding → t.state = .decoding ∨ t.state = .success ∨ t.state = .failure) ∧
      (s.state = .success ∨ s.state = .failure ∨ s.state = .unused → t.state = .idle))) ∧
  Row.all.map (fun r => (r, r.matchBits.toNat, r.mask.toNat)) =
    [(.reset, 0x10, 0x10), (.attemptRead, 0x08, 0xF8), (.idleWait, 0x00, 0xF8), (.hsLowWait, 0x20, 0xF4),
     (.hsLowTick, 0x24, 0xF4), (.hsHighWait, 0x40, 0xF4), (.hsHighTick, 0x44, 0xF4), (.sampleWait, 0x60, 0xF2),
     (.sampleSame, 0x63, 0xF3), (.sampleChange, 0x62, 0xF3), (.decodeEntry, 0x80, 0xF1), (.validate, 0x81, 0xF1),
     (.successDone, 0xA0, 0xF0), (.failureDone, 0xC0, 0xF0), (.unusedState, 0xE0, 0xF0)]

/-- A step runs the rule the dispatch word decodes to, and then the clock edge: the registers are the rule's, the
next cycle's inputs are the nearest decided ones, or a free draw (log 1, log 11: the model's choice), and the draw
counter moves on by one. A rule that faults stops the step with the same fault, and no rule refuses. -/
def Obligations.StepRunsTheDecodedInstruction : Prop :=
  ∀ (s : State) (i : Instr), decode (fetchBytes s) = .ok (i, []) →
    (∀ u, exec i s = .next u → ∃ x xs,
      (u.stimulus = x :: xs ∨ (u.stimulus = [] ∧ xs = [] ∧ x = Config.freeInputs u.draws)) ∧
      step s = .next { u with inputs := x, stimulus := xs, draws := u.draws + 1 }) ∧
    (∀ f, exec i s = .fault f → step s = .fault f) ∧
    (∀ r, exec i s ≠ .refused r)

/-- R90, R93, R94: the codes of levels, outcomes and states; with them the layout of a trace entry. -/
def Obligations.ValuesHaveTheSpecsCodes : Prop :=
  levelBit .high = true ∧ levelBit .low = false ∧
  [DecodeOutcome.none, .success, .incompleteFrame, .checksumMismatch].map outcomeCode =
    [0b00#2, 0b01#2, 0b10#2, 0b11#2] ∧
  [AttemptState.idle, .hsLow, .hsHigh, .sampling, .decoding, .success, .failure, .unused].map AttemptState.code =
    [0b000#3, 0b001#3, 0b010#3, 0b011#3, 0b100#3, 0b101#3, 0b110#3, 0b111#3] ∧
  (∀ st : AttemptState, AttemptState.ofCode st.code = st) ∧
  (∀ e : Observation, (observationBits e).getLsbD 8 = levelBit e.resultingLevel ∧
    (observationBits e).extractLsb' 0 8 = e.durationTicks ∧ observationOfBits (observationBits e) = e) ∧
  (∀ b : BitVec 9, observationBits (observationOfBits b) = b)

/-! ### The rules of the Pulse Sampler: encoding, when selected, effect (and so the whole frame) -/

/-- R121 -/
def Obligations.AttemptReadStartsAnAttempt : Prop :=
  (∀ w : Byte, rowOf w = some .attemptRead ↔ w &&& 0xF8#8 = 0x08#8) ∧
  (∀ s : State, rowOf (dispatchWord s) = some .attemptRead ↔
    s.state = .idle ∧ s.inputs.rst = false ∧ s.inputs.start = true) ∧
  (∀ (s : State) (u k c : Bool), exec (.attemptRead u k c) s = .next
    { s with state := .hsLow, tcnt := 0, ref := .high, cnt := 0, tlen := 0, sat := false, di := 0, nbits := 0,
             shift := 0 })

/-- R122, R123, R125, R127: the waiting rules change no register. -/
def Obligations.WaitingRulesChangeNothing : Prop :=
  (∀ w : Byte, (rowOf w = some .idleWait ↔ w &&& 0xF8#8 = 0x00#8) ∧
    (rowOf w = some .hsLowWait ↔ w &&& 0xF4#8 = 0x20#8) ∧
    (rowOf w = some .hsHighWait ↔ w &&& 0xF4#8 = 0x40#8) ∧
    (rowOf w = some .sampleWait ↔ w &&& 0xF2#8 = 0x60#8)) ∧
  (∀ s : State,
    (rowOf (dispatchWord s) = some .idleWait ↔
      s.state = .idle ∧ s.inputs.rst = false ∧ s.inputs.start = false) ∧
    (rowOf (dispatchWord s) = some .hsLowWait ↔
      s.state = .hsLow ∧ s.inputs.rst = false ∧ s.inputs.usTick = false) ∧
    (rowOf (dispatchWord s) = some .hsHighWait ↔
      s.state = .hsHigh ∧ s.inputs.rst = false ∧ s.inputs.usTick = false) ∧
    (rowOf (dispatchWord s) = some .sampleWait ↔
      s.state = .sampling ∧ s.inputs.rst = false ∧ s.inputs.sampleTick = false)) ∧
  (∀ (s : State) (a b c : Bool), exec (.idleWait a b c) s = .next s ∧ exec (.hsLowWait a b c) s = .next s ∧
    exec (.hsHighWait a b c) s = .next s ∧ exec (.sampleWait a b c) s = .next s)

/-- R124, for every TCNT whose successor fits its 15 bits (CounterOverflowLeavesAFreeValue is the one that does
not). -/
def Obligations.HsLowTickCountsOneMicrosecond : Prop :=
  (∀ w : Byte, rowOf w = some .hsLowTick ↔ w &&& 0xF4#8 = 0x24#8) ∧
  (∀ s : State, rowOf (dispatchWord s) = some .hsLowTick ↔
    s.state = .hsLow ∧ s.inputs.rst = false ∧ s.inputs.usTick = true) ∧
  (∀ (s : State) (t k c : Bool),
    (s.tcnt.toNat = 19999 → exec (.hsLowTick t k c) s = .next { s with state := .hsHigh, tcnt := 0 }) ∧
    (s.tcnt.toNat ≠ 19999 → s.tcnt.toNat < 32767 →
      exec (.hsLowTick t k c) s = .next { s with tcnt := s.tcnt + 1 }) ∧
    (∀ u, s.tcnt.toNat ≤ 19999 → exec (.hsLowTick t k c) s = .next u → u.tcnt.toNat ≤ 19999))

/-- R126, for every TCNT whose successor fits its 15 bits (CounterOverflowLeavesAFreeValue is the one that does
not). -/
def Obligations.HsHighTickCountsAndReleasesTheLine : Prop :=
  (∀ w : Byte, rowOf w = some .hsHighTick ↔ w &&& 0xF4#8 = 0x44#8) ∧
  (∀ s : State, rowOf (dispatchWord s) = some .hsHighTick ↔
    s.state = .hsHigh ∧ s.inputs.rst = false ∧ s.inputs.usTick = true) ∧
  (∀ (s : State) (t k c : Bool),
    (s.tcnt.toNat = 39 → exec (.hsHighTick t k c) s = .next { s with state := .sampling, tcnt := 0 }) ∧
    (s.tcnt.toNat ≠ 39 → s.tcnt.toNat < 32767 →
      exec (.hsHighTick t k c) s = .next { s with tcnt := s.tcnt + 1 }) ∧
    (∀ u, s.state = .hsHigh → s.tcnt.toNat = 39 → exec (.hsHighTick t k c) s = .next u →
      lineOe s = true ∧ lineOe u = false))

/-- R128, for every CNT that SAMPLING can hold (CounterOverflowLeavesAFreeValue is the one left). -/
def Obligations.SampleSameCountsAndSaturates : Prop :=
  (∀ w : Byte, rowOf w = some .sampleSame ↔ w &&& 0xF3#8 = 0x63#8) ∧
  (∀ s : State, rowOf (dispatchWord s) = some .sampleSame ↔
    s.state = .sampling ∧ s.inputs.rst = false ∧ s.inputs.sampleTick = true ∧ s.inputs.lineIn = s.ref) ∧
  (∀ (s : State) (t u : Bool),
    (s.cnt.toNat = 254 →
      exec (.sampleSame t u) s = .next { s with cnt := 255, sat := true, state := .decoding }) ∧
    (s.cnt.toNat < 254 → exec (.sampleSame t u) s = .next { s with cnt := s.cnt + 1 }))

/-- The model's choice (log 6): where a counter's successor does not fit its width, in states no run from reset
holds, the rule still runs, that counter's new value is open, and everything else stays. -/
def Obligations.CounterOverflowLeavesAFreeValue : Prop :=
  (∀ (s : State) (t k c : Bool), s.tcnt.toNat = 32767 →
    (∃ v, exec (.hsLowTick t k c) s = .next { s with tcnt := v }) ∧
    (∃ v, exec (.hsHighTick t k c) s = .next { s with tcnt := v })) ∧
  (∀ (s : State) (t u : Bool), s.cnt.toNat = 255 → ∃ v, exec (.sampleSame t u) s = .next { s with cnt := v })

/-- R129, for every TLEN that is an index of TRACE: the entry is written at TLEN, and every other entry reads as
before. -/
def Obligations.SampleChangeRecordsATransition : Prop :=
  (∀ w : Byte, rowOf w = some .sampleChange ↔ w &&& 0xF3#8 = 0x62#8) ∧
  (∀ s : State, rowOf (dispatchWord s) = some .sampleChange ↔
    s.state = .sampling ∧ s.inputs.rst = false ∧ s.inputs.sampleTick = true ∧ s.inputs.lineIn ≠ s.ref) ∧
  (∀ (s : State) (t u : Bool), s.tlen.toNat < 85 → ∃ m : Memory,
    exec (.sampleChange t u) s = .next
      { s with trace := m, tlen := s.tlen + 1, ref := s.inputs.lineIn, cnt := 0,
               state := if s.tlen.toNat + 1 = 85 then .decoding else s.state } ∧
    Memory.read m s.tlen.toNat = ⟨s.inputs.lineIn, s.cnt⟩ ∧
    (∀ a, a ≠ s.tlen.toNat → Memory.read m a = Memory.read s.trace a))

/-- An access to TRACE at an index of 85 or more stops with the fault named after it, in SAMPLE_CHANGE and in
DECODE_ENTRY (log 5, the model's reading of R70). Nothing else in any step stops, and a step is never refused. -/
def Obligations.OnlyAnAbsentTraceIndexStops : Prop :=
  (∀ (s : State) (t u : Bool), 85 ≤ s.tlen.toNat →
    exec (.sampleChange t u) s = .fault (.traceIndexOutOfRange s.tlen.toNat)) ∧
  (∀ (s : State) (t u k : Bool), 85 ≤ s.di.toNat →
    exec (.decodeEntry t u k) s = .fault (.traceIndexOutOfRange s.di.toNat)) ∧
  (∀ s : State, (∃ t, step s = .next t) ∨
    (s.inputs.rst = false ∧ s.state = .sampling ∧ s.inputs.sampleTick = true ∧ s.inputs.lineIn ≠ s.ref ∧
      85 ≤ s.tlen.toNat ∧ step s = .fault (.traceIndexOutOfRange s.tlen.toNat)) ∨
    (s.inputs.rst = false ∧ s.state = .decoding ∧ s.di ≠ s.tlen ∧ 85 ≤ s.di.toNat ∧
      step s = .fault (.traceIndexOutOfRange s.di.toNat)))

/-! ### The rules of the Frame Decoder -/

/-- R161, for every DI that is an index of TRACE, with the selector and the classifier of R160 written out. -/
def Obligations.DecodeEntryShiftsInConsideredBits : Prop :=
  (∀ w : Byte, rowOf w = some .decodeEntry ↔ w &&& 0xF1#8 = 0x80#8) ∧
  (∀ s : State, rowOf (dispatchWord s) = some .decodeEntry ↔
    s.state = .decoding ∧ s.inputs.rst = false ∧ s.di ≠ s.tlen) ∧
  (∀ (s : State) (t u k : Bool), s.di.toNat < 85 →
    (4 ≤ s.di.toNat → s.di.toNat % 2 = 0 → s.nbits.toNat < 40 →
      exec (.decodeEntry t u k) s = .next
        { s with
          shift := s.shift <<< 1 |||
            (if (Memory.read s.trace s.di.toNat).durationTicks.toNat > 16 then 1#40 else 0#40)
          nbits := s.nbits + 1
          di := s.di + 1 }) ∧
    (s.di.toNat < 4 ∨ s.di.toNat % 2 = 1 ∨ 40 ≤ s.nbits.toNat →
      exec (.decodeEntry t u k) s = .next { s with di := s.di + 1 }))

/-- R162, with the bytes of R163 and the sum of R164 written out. -/
def Obligations.ValidateWritesTheOutcome : Prop :=
  (∀ w : Byte, rowOf w = some .validate ↔ w &&& 0xF1#8 = 0x81#8) ∧
  (∀ s : State, rowOf (dispatchWord s) = some .validate ↔
    s.state = .decoding ∧ s.inputs.rst = false ∧ s.di = s.tlen) ∧
  (∀ (s : State) (t u k : Bool),
    let b0 := s.shift.extractLsb' 32 8
    let b1 := s.shift.extractLsb' 24 8
    let b2 := s.shift.extractLsb' 16 8
    let b3 := s.shift.extractLsb' 8 8
    let b4 := s.shift.extractLsb' 0 8
    (s.nbits.toNat < 40 → exec (.validate t u k) s = .next
      { s with timeout := s.sat, outcome := .incompleteFrame, humInt := 0, humFrac := 0, tempInt := 0, tempFrac := 0,
               capturedAt := 0, state := .failure }) ∧
    (40 ≤ s.nbits.toNat → b4 = b0 + b1 + b2 + b3 → exec (.validate t u k) s = .next
      { s with timeout := s.sat, outcome := .success, humInt := b0, humFrac := b1, tempInt := b2, tempFrac := b3,
               capturedAt := s.inputs.wallclock, state := .success }) ∧
    (40 ≤ s.nbits.toNat → b4 ≠ b0 + b1 + b2 + b3 → exec (.validate t u k) s = .next
      { s with timeout := s.sat, outcome := .checksumMismatch, humInt := 0, humFrac := 0, tempInt := 0, tempFrac := 0,
               capturedAt := 0, state := .failure }))

/-- R166, R167, R175: the done states and the reserved state go to IDLE and change nothing else; what the outputs
show in them. -/
def Obligations.DoneAndReservedStatesReturnToIdle : Prop :=
  (∀ w : Byte, (rowOf w = some .successDone ↔ w &&& 0xF0#8 = 0xA0#8) ∧
    (rowOf w = some .failureDone ↔ w &&& 0xF0#8 = 0xC0#8) ∧
    (rowOf w = some .unusedState ↔ w &&& 0xF0#8 = 0xE0#8)) ∧
  (∀ s : State,
    (rowOf (dispatchWord s) = some .successDone ↔ s.state = .success ∧ s.inputs.rst = false) ∧
    (rowOf (dispatchWord s) = some .failureDone ↔ s.state = .failure ∧ s.inputs.rst = false) ∧
    (rowOf (dispatchWord s) = some .unusedState ↔ s.state = .unused ∧ s.inputs.rst = false)) ∧
  (∀ (s : State) (t u k c : Bool), exec (.successDone t u k c) s = .next { s with state := .idle } ∧
    exec (.failureDone t u k c) s = .next { s with state := .idle } ∧
    exec (.unusedState t u k c) s = .next { s with state := .idle }) ∧
  (∀ s : State, (s.state = .success ∨ s.state = .failure → done s = true ∧ busy s = true) ∧
    (s.state = .unused → busy s = true ∧ done s = false ∧ lineOe s = false)) ∧
  (∀ s : State, Inv s → (s.state = .success → (outputs s).outcome = 0b01#2) ∧
    (s.state = .failure → ((outputs s).outcome = 0b10#2 ∨ (outputs s).outcome = 0b11#2) ∧ (outputs s).humInt = 0 ∧
      (outputs s).humFrac = 0 ∧ (outputs s).tempInt = 0 ∧ (outputs s).tempFrac = 0 ∧ (outputs s).capturedAt = 0))

/-- R240: every register takes its reset value, and TRACE is not written. -/
def Obligations.ResetSetsEveryRegisterButTrace : Prop :=
  (∀ w : Byte, rowOf w = some .reset ↔ w &&& 0x10#8 = 0x10#8) ∧
  (∀ s : State, rowOf (dispatchWord s) = some .reset ↔ s.inputs.rst = true) ∧
  (∀ (s : State) (st : AttemptState) (t u k c : Bool), exec (.reset st t u k c) s = .next
    { s with state := .idle, tcnt := 0, ref := .high, cnt := 0, tlen := 0, sat := false, di := 0, nbits := 0, shift := 0,
             outcome := .none, timeout := false, humInt := 0, humFrac := 0, tempInt := 0, tempFrac := 0,
             capturedAt := 0 })

/-! ### Ports -/

/-- R31, R32, R33: each output is the function of the registers the rules give, and no input reaches an output
in the same cycle. `done` lasts one cycle. -/
def Obligations.OutputsAreFunctionsOfTheRegisters : Prop :=
  ∀ s : State,
    ((outputs s).lineOe = true ↔ s.state = .hsLow ∨ s.state = .hsHigh) ∧
    ((outputs s).lineOut = .low ↔ s.state = .hsLow) ∧
    ((outputs s).busy = true ↔ s.state ≠ .idle) ∧
    ((outputs s).done = true ↔ s.state = .success ∨ s.state = .failure) ∧
    (outputs s).outcome = outcomeCode s.outcome ∧ (outputs s).timeout = s.timeout ∧
    (outputs s).humInt = s.humInt ∧ (outputs s).humFrac = s.humFrac ∧
    (outputs s).tempInt = s.tempInt ∧ (outputs s).tempFrac = s.tempFrac ∧
    (outputs s).capturedAt = s.capturedAt ∧
    (∀ x : Inputs, outputs { s with inputs := x } = outputs s) ∧
    (∀ t, (outputs s).done = true → step s = .next t → (outputs t).done = false)

/-- R55: what the machine right after reset holds and shows. (TRACE is unspecified there.) -/
def Obligations.ResetStateHasTheSpecsValues : Prop :=
  let s := State.reset
  s.state = .idle ∧ s.tcnt = 0 ∧ s.ref = .high ∧ s.cnt = 0 ∧ s.tlen = 0 ∧ s.sat = false ∧ s.di = 0 ∧ s.nbits = 0 ∧
  s.shift = 0 ∧ s.outcome = .none ∧ s.timeout = false ∧ s.humInt = 0 ∧ s.humFrac = 0 ∧ s.tempInt = 0 ∧
  s.tempFrac = 0 ∧ s.capturedAt = 0 ∧
  outputs s = ⟨false, .high, false, false, 0b00#2, false, 0, 0, 0, 0, 0⟩

/-- R173: the result registers change only in a validation cycle and at reset, whatever else happens;
and a validation that does not succeed leaves the Reading at 0. -/
def Obligations.ResultsChangeOnlyInValidationOrReset : Prop :=
  ∀ s t : State, step s = .next t →
    (s.inputs.rst = false → ¬ (s.state = .decoding ∧ s.di = s.tlen) → resultOf t = resultOf s) ∧
    (resultOf t ≠ resultOf s → t.outcome ≠ .success →
      t.humInt = 0 ∧ t.humFrac = 0 ∧ t.tempInt = 0 ∧ t.tempFrac = 0 ∧ t.capturedAt = 0)

/-- R30: the core reads each input only where a rule names it. Two cycles whose inputs agree on what the rules of the
present state name take the same step, whatever the other inputs are. -/
def Obligations.InputsMatterOnlyWhereARuleNamesThem : Prop :=
  ∀ (s : State) (x : Inputs), x.rst = s.inputs.rst →
    (s.inputs.rst = false →
      (s.state = .idle → x.start = s.inputs.start) ∧
      (s.state = .hsLow ∨ s.state = .hsHigh → x.usTick = s.inputs.usTick) ∧
      (s.state = .sampling → x.sampleTick = s.inputs.sampleTick) ∧
      (s.state = .sampling → s.inputs.sampleTick = true → x.lineIn = s.inputs.lineIn) ∧
      (s.state = .decoding → s.di = s.tlen → x.wallclock = s.inputs.wallclock)) →
    step { s with inputs := x } = step s

/-- R206: how simultaneous conditions are resolved, point by point. -/
def Obligations.SimultaneousConditionsAreResolved : Prop :=
  (∀ s : State, s.inputs.rst = true → rowOf (dispatchWord s) = some .reset) ∧
  (∀ (s : State) (b : Bool), s.state ≠ .idle →
    rowOf (dispatchWord { s with inputs := { s.inputs with start := b } }) = rowOf (dispatchWord s)) ∧
  (∀ (s : State) (x : Inputs), s.state = .idle → x.rst = s.inputs.rst → x.start = s.inputs.start →
    rowOf (dispatchWord { s with inputs := x }) = rowOf (dispatchWord s)) ∧
  (∀ s t : State, s.state = .sampling → s.inputs.rst = false → step s = .next t →
    ¬ (t.cnt.toNat = 255 ∧ t.sat = true ∧ s.sat = false ∧ t.tlen.toNat = 85 ∧ s.tlen.toNat = 84)) ∧
  (∀ (s u : State) (a b c : Bool), s.nbits.toNat < 40 → exec (.validate a b c) s = .next u →
    u.outcome = .incompleteFrame) ∧
  (∀ (s u v : State) (a b c : Bool), exec (.validate a b c) s = .next u →
    exec (.validate a b c) { s with sat := !s.sat } = .next v →
    u.timeout = s.sat ∧ v.timeout = (!s.sat) ∧ u.outcome = v.outcome)

/-! ### Pure functions of the decoder -/

/-- R160: the transition selector and the bit classifier. -/
def Obligations.SelectorAndClassifier : Prop :=
  (∀ i : Nat, considered i = true ↔ ∃ k, i = 4 + 2 * k) ∧
  (∀ d : Byte, classify d = true ↔ 17 ≤ d.toNat) ∧ classify 16 = false ∧ classify 17 = true

/-- R163: byte `k` of a shift register is its bits 39 − 8k down to 32 − 8k; of 40 bits shifted in, byte `k` holds
bits 8k to 8k + 7, the first of them most significant. -/
def Obligations.ByteAssemblerKeepsReceivedOrder : Prop :=
  (∀ (s : BitVec 40) (k m : Nat), k < 5 → m < 8 → (frameByte k s).getLsbD m = s.getLsbD (32 - 8 * k + m)) ∧
  (∀ (bits : List Bool) (j : Nat), bits.length = 40 → j < 40 →
    (shiftOf bits).getLsbD (39 - j) = bits.getD j false) ∧
  (∀ (bits : List Bool) (k m : Nat), bits.length = 40 → k < 5 → m < 8 →
    (frameByte k (shiftOf bits)).getLsbD (7 - m) = bits.getD (8 * k + m) false)

/-- R164, R165: the checksum test, that it accepts every frame with the right sum, and that it rejects every frame
that differs from an accepted one in exactly one bit. -/
def Obligations.ChecksumAcceptsAndRejects : Prop :=
  (∀ a b c d e : Byte, checksumOk (a ++ b ++ c ++ d ++ e) = true ↔
    e.toNat = (a.toNat + b.toNat + c.toNat + d.toNat) % 256) ∧
  (∀ a b c d : Byte, checksumOk (a ++ b ++ c ++ d ++ (a + b + c + d)) = true) ∧
  (∀ (s : BitVec 40) (m : Nat), m < 40 → checksumOk s = true → checksumOk (s ^^^ (1#40 <<< m)) = false)

/-- R171: the laws of `Decode`: it depends only on the considered durations (preamble, odd entries, levels do not
matter), its threshold, completeness, and the checksum law and rejection. -/
def Obligations.DecodeFunctionLaws : Prop :=
  (∀ t u : List Observation, t.length = u.length →
    (∀ i (h : i < t.length) (h' : i < u.length), 4 ≤ i → i % 2 = 0 →
      t[i].durationTicks = u[i].durationTicks) → decodeTrace t = decodeTrace u) ∧
  (classify 16 = false ∧ classify 17 = true) ∧
  (∀ t : List Observation, consideredBelow t.length < 40 → decodeTrace t = .incompleteFrame) ∧
  (∀ (t : List Observation) (a b c d e : Byte),
    frameBitsOf t = (List.range 40).map (fun j => (a ++ b ++ c ++ d ++ e).getLsbD (39 - j)) →
    decodeTrace t = if e = a + b + c + d then .success a b c d else .checksumMismatch)

/-- R170: the bit count from the trace length, in the function and in the machine's validation cycle. -/
def Obligations.BitCountFollowsFromTraceLength : Prop :=
  (∀ n : Nat, consideredBelow n = (n - 3) / 2) ∧
  (∀ s : State, Inv s → s.state = .decoding → s.di = s.tlen →
    s.nbits.toNat = min 40 ((s.tlen.toNat - 3) / 2)) ∧
  (∀ t : List Observation, t.length ≤ 82 → decodeTrace t = .incompleteFrame) ∧
  (∀ t : List Observation, 83 ≤ t.length → t.length ≤ 85 →
    (frameBitsOf t).length = 40 ∧ decodeTrace t = decodeTrace (t.take 83))

/-! ### Invariants -/

/-- The machine right after reset meets the invariant. -/
def Obligations.ResetStateMeetsTheInvariant : Prop := Inv State.reset

/-- A RESET row, from any state whatever (R241), leads to the invariant; TRACE need only be in canonical form. -/
def Obligations.ResetRowEstablishesTheInvariant : Prop :=
  ∀ s : State, Memory.wf s.trace → s.inputs.rst = true → ∃ t, step s = .next t ∧ Inv t

/-- Every step keeps the invariant: the bounds of R56, the canonical form of TRACE, entries written before they are
read (R73), alternating levels (R130), durations up to 254 (R132), how sampling ended (R133), the bits decoded so
far (R169), outcomes in the done states (R166, R167), and no Reading without a success. -/
def Obligations.EveryStepKeepsTheInvariant : Prop :=
  ∀ s t : State, Inv s → step s = .next t → Inv t

/-- Within the invariant no condition stops the core. -/
def Obligations.NoConditionStopsTheCore : Prop := ∀ s : State, Inv s → ∃ t, step s = .next t

/-- R56: from reset, with any inputs and any TRACE, the rules keep the invariants it lists, in every cycle. -/
def Obligations.ReachableValuesHoldFromReset : Prop :=
  ∀ (n : Nat) (s : State), Memory.wf s.trace → ResetValues s → ∃ t, run n s = .next t ∧ ReachableValues t

/-! ### Phases of an attempt -/

/-- The handshake: from the start of HS_LOW the line is driven LOW until the 20000th `us_tick` strobe seen
there, then HIGH until the 40th seen in HS_HIGH, whatever the pattern of strobes; then it is released. -/
def Obligations.HandshakeLastsItsStrobes : Prop :=
  (∀ (s : State) (xs : List Inputs), s.state = .hsLow → s.tcnt = 0 → Feeds s xs → NoReset xs →
    usStrobes xs < 20000 → ∃ t, run xs.length s = .next t ∧ t.state = .hsLow ∧ t.tcnt.toNat = usStrobes xs ∧
      drivenLevel t = some .low) ∧
  (∀ (s : State) (xs : List Inputs) (x : Inputs), s.state = .hsLow → s.tcnt = 0 → Feeds s (xs ++ [x]) →
    NoReset (xs ++ [x]) → usStrobes xs = 19999 → x.usTick = true →
    ∃ t, run (xs.length + 1) s = .next t ∧ t.state = .hsHigh ∧ t.tcnt = 0 ∧ drivenLevel t = some .high) ∧
  (∀ (s : State) (xs : List Inputs), s.state = .hsHigh → s.tcnt = 0 → Feeds s xs → NoReset xs →
    usStrobes xs < 40 → ∃ t, run xs.length s = .next t ∧ t.state = .hsHigh ∧ t.tcnt.toNat = usStrobes xs ∧
      drivenLevel t = some .high) ∧
  (∀ (s : State) (xs : List Inputs) (x : Inputs), s.state = .hsHigh → s.tcnt = 0 → Feeds s (xs ++ [x]) →
    NoReset (xs ++ [x]) → usStrobes xs = 39 → x.usTick = true →
    ∃ t, run (xs.length + 1) s = .next t ∧ t.state = .sampling ∧ t.ref = s.ref ∧ t.cnt = s.cnt ∧
      drivenLevel t = none)

/-- The duration law for one measurement: after `n` samples at the reference level, with any cycles
without a strobe among them, a change records `n` when n ≤ 254, and the 255th sample at that level saturates and
records nothing. -/
def Obligations.MeasurementRecordsItsSamples : Prop :=
  ∀ (s : State) (xs : List Inputs) (x : Inputs) (n : Nat), s.state = .sampling → s.cnt = 0 → s.tlen.toNat < 85 →
    Feeds s (xs ++ [x]) → NoReset (xs ++ [x]) → samples xs = List.replicate n s.ref → x.sampleTick = true → n ≤ 254 →
    ∃ t, run (xs.length + 1) s = .next t ∧
      (x.lineIn ≠ s.ref → t.trace = Memory.write s.trace s.tlen.toNat ⟨x.lineIn, BitVec.ofNat 8 n⟩ ∧
        t.tlen = s.tlen + 1 ∧ t.ref = x.lineIn ∧ t.cnt = 0 ∧ t.sat = s.sat ∧
        t.state = if s.tlen.toNat + 1 = 85 then .decoding else .sampling) ∧
      (x.lineIn = s.ref → n < 254 → t.state = .sampling ∧ t.cnt.toNat = n + 1 ∧ t.trace = s.trace) ∧
      (x.lineIn = s.ref → n = 254 → t.state = .decoding ∧ t.sat = true ∧ t.cnt = 255 ∧ t.tlen = s.tlen ∧
        t.trace = s.trace)

/-- R133: SAMPLING ends by the cap or by saturation, after at most 21675 sampling ticks, whatever the line does. -/
def Obligations.SamplingEndsWhateverTheLineDoes : Prop :=
  ∀ (s : State) (xs : List Inputs), Inv s → s.state = .sampling → Feeds s xs → NoReset xs →
    21675 ≤ sampleStrobes xs → ∃ ys t, ys <+: xs ∧ sampleStrobes ys ≤ 21675 ∧ run ys.length s = .next t ∧
      t.state = .decoding ∧ ((t.tlen.toNat = 85 ∧ t.sat = false) ∨ (t.tlen.toNat ≤ 84 ∧ t.sat = true))

/-- R176: DECODING lasts TLEN + 1 cycles, whatever the strobes do, the done cycle follows, and then IDLE. -/
def Obligations.DecodingTakesTlenPlusOneCycles : Prop :=
  ∀ (s : State) (xs : List Inputs), s.state = .decoding → s.di = 0 → s.tlen.toNat ≤ 85 → Feeds s xs → NoReset xs →
    xs.length = s.tlen.toNat + 2 →
    (∀ k ≤ s.tlen.toNat, ∃ t, run k s = .next t ∧ t.state = .decoding ∧ t.di.toNat = k) ∧
    (∃ t, run (s.tlen.toNat + 1) s = .next t ∧ done t = true) ∧
    (∃ t, run (s.tlen.toNat + 2) s = .next t ∧ t.state = .idle)

/-- R169: the hardware computes `Decode` of the recorded trace. -/
def Obligations.HardwareComputesDecode : Prop :=
  ∀ (s : State) (xs : List Inputs), s.state = .decoding → s.di = 0 → s.nbits = 0 → s.shift = 0 →
    s.tlen.toNat ≤ 85 → Feeds s xs → NoReset xs → xs.length = s.tlen.toNat + 1 →
    ∃ v t, run s.tlen.toNat s = .next v ∧ v.di = v.tlen ∧
      v.nbits.toNat = min 40 ((List.range s.tlen.toNat).countP considered) ∧
      (v.nbits.toNat = 40 → ∀ j < 40, v.shift.getLsbD (39 - j) = (frameBitsOf (pulseTrace s)).getD j false) ∧
      run (s.tlen.toNat + 1) s = .next t ∧
      resultOf t = resultFor (decodeTrace (pulseTrace s)) s.sat v.inputs.wallclock ∧
      t.state = if (decodeTrace (pulseTrace s)).outcome = .success then .success else .failure

/-- R245: `start` is read only in IDLE. There it begins an attempt; a `start` in any other state is lost, and one
held through the done cycle begins the next attempt in the cycle after it. -/
def Obligations.StartIsReadOnlyInIdle : Prop :=
  (∀ s : State, s.state = .idle → s.inputs.rst = false → s.inputs.start = true →
    ∃ t, step s = .next t ∧ t.state = .hsLow) ∧
  (∀ (s : State) (b : Bool), s.state ≠ .idle → step { s with inputs := { s.inputs with start := b } } = step s) ∧
  (∀ (s : State) (x y : Inputs), done s = true → Feeds s [x, y] → NoReset [x, y] →
    ∃ t, run 2 s = .next t ∧ t.state = if y.start then .hsLow else .idle)

/-- R253: an accepted request under configuration T1 goes through its states at the cycles R253 gives, and
ends in a done cycle at most 41802 cycles later, whatever the line does. R254 marks these counts as the spec's own
timing, from its cycle-level decisions; EveryAttemptEndsGivenItsStrobes states the end by the order of events. -/
def Obligations.EveryAttemptEndsOnTime : Prop :=
  (∀ (s : State) (xs : List Inputs), s.state = .idle → s.inputs.start = true → Feeds s xs → NoReset xs →
    BothStrobes xs → xs.length = 41802 →
    ∃ (l : Nat) (t : State), l ≤ 21675 ∧ t.tlen.toNat ≤ 85 ∧ run (20042 + l + t.tlen.toNat) s = .next t ∧
      done t = true ∧
      (∀ k, 1 ≤ k → k < 20001 → ∃ u, run k s = .next u ∧ u.state = .hsLow) ∧
      (∀ k, 20001 ≤ k → k < 20041 → ∃ u, run k s = .next u ∧ u.state = .hsHigh) ∧
      (∀ k, 20041 ≤ k → k < 20041 + l → ∃ u, run k s = .next u ∧ u.state = .sampling) ∧
      (∀ k, 20041 + l ≤ k → k < 20042 + l + t.tlen.toNat → ∃ u, run k s = .next u ∧ u.state = .decoding)) ∧
  requestLowTime = 20000 * Config.tUs ∧ requestHighTime = 40 * Config.tUs

/-- An accepted request whose environment gives the strobes of R215 and no reset has a done cycle: the
first cycle after it that is not in progress, with an outcome that goes with the done state. -/
def Obligations.EveryAttemptEndsGivenItsStrobes : Prop :=
  ∀ (s : State) (x : Inputs) (lo hi sm dec : List Inputs), s.state = .idle → x.start = true →
    Feeds s (x :: (lo ++ hi ++ sm ++ dec)) → NoReset (x :: (lo ++ hi ++ sm ++ dec)) →
    20000 ≤ usStrobes lo → 40 ≤ usStrobes hi → 21675 ≤ sampleStrobes sm → 86 ≤ dec.length →
    ∃ (d : Nat) (t : State), d ≤ 1 + lo.length + hi.length + sm.length + 86 ∧ run d s = .next t ∧ done t = true ∧
      (t.state = .success → t.outcome = .success) ∧
      (t.state = .failure → t.outcome = .incompleteFrame ∨ t.outcome = .checksumMismatch) ∧
      ∀ k, 1 ≤ k → k < d → ∃ u, run k s = .next u ∧ busy u = true ∧ done u = false

/-- An attempt depends on nothing from before it. Two machines that accept a request with the same inputs from
then on run the same attempt, whatever their registers and TRACE held, and show the same result in its done cycle. -/
def Obligations.AttemptsAreIndependentOfThePast : Prop :=
  ∀ (s t : State) (n : Nat), s.state = .idle → t.state = .idle → s.inputs = t.inputs → s.stimulus = t.stimulus →
    s.draws = t.draws → s.inputs.start = true → s.inputs.rst = false →
    ∃ u v, run (n + 1) s = .next u ∧ run (n + 1) t = .next v ∧ SameAttempt u v ∧
      (done u = true → resultOf u = resultOf v)
end

