-- ==== Sys2Proof/Laws/State.lean ====
section
/-! SUPPORT. Laws/State.lean: one lemma per field per register write, so that no proof unfolds a record update. -/

namespace Sys2Proof.Machine

section
variable (s : State) (st : AttemptState)

@[simp] theorem State.goto_state : (s.goto st).state = st := rfl
@[simp] theorem State.goto_tcnt : (s.goto st).tcnt = s.tcnt := rfl
@[simp] theorem State.goto_ref : (s.goto st).ref = s.ref := rfl
@[simp] theorem State.goto_cnt : (s.goto st).cnt = s.cnt := rfl
@[simp] theorem State.goto_trace : (s.goto st).trace = s.trace := rfl
@[simp] theorem State.goto_tlen : (s.goto st).tlen = s.tlen := rfl
@[simp] theorem State.goto_sat : (s.goto st).sat = s.sat := rfl
@[simp] theorem State.goto_di : (s.goto st).di = s.di := rfl
@[simp] theorem State.goto_nbits : (s.goto st).nbits = s.nbits := rfl
@[simp] theorem State.goto_shift : (s.goto st).shift = s.shift := rfl
@[simp] theorem State.goto_outcome : (s.goto st).outcome = s.outcome := rfl
@[simp] theorem State.goto_timeout : (s.goto st).timeout = s.timeout := rfl
@[simp] theorem State.goto_humInt : (s.goto st).humInt = s.humInt := rfl
@[simp] theorem State.goto_humFrac : (s.goto st).humFrac = s.humFrac := rfl
@[simp] theorem State.goto_tempInt : (s.goto st).tempInt = s.tempInt := rfl
@[simp] theorem State.goto_tempFrac : (s.goto st).tempFrac = s.tempFrac := rfl
@[simp] theorem State.goto_capturedAt : (s.goto st).capturedAt = s.capturedAt := rfl
@[simp] theorem State.goto_inputs : (s.goto st).inputs = s.inputs := rfl
@[simp] theorem State.goto_stimulus : (s.goto st).stimulus = s.stimulus := rfl
@[simp] theorem State.goto_draws : (s.goto st).draws = s.draws := rfl

end

section
variable (s : State) (v : BitVec 15)

@[simp] theorem State.setTcnt_state : (s.setTcnt v).state = s.state := rfl
@[simp] theorem State.setTcnt_tcnt : (s.setTcnt v).tcnt = v := rfl
@[simp] theorem State.setTcnt_ref : (s.setTcnt v).ref = s.ref := rfl
@[simp] theorem State.setTcnt_cnt : (s.setTcnt v).cnt = s.cnt := rfl
@[simp] theorem State.setTcnt_trace : (s.setTcnt v).trace = s.trace := rfl
@[simp] theorem State.setTcnt_tlen : (s.setTcnt v).tlen = s.tlen := rfl
@[simp] theorem State.setTcnt_sat : (s.setTcnt v).sat = s.sat := rfl
@[simp] theorem State.setTcnt_di : (s.setTcnt v).di = s.di := rfl
@[simp] theorem State.setTcnt_nbits : (s.setTcnt v).nbits = s.nbits := rfl
@[simp] theorem State.setTcnt_shift : (s.setTcnt v).shift = s.shift := rfl
@[simp] theorem State.setTcnt_outcome : (s.setTcnt v).outcome = s.outcome := rfl
@[simp] theorem State.setTcnt_timeout : (s.setTcnt v).timeout = s.timeout := rfl
@[simp] theorem State.setTcnt_humInt : (s.setTcnt v).humInt = s.humInt := rfl
@[simp] theorem State.setTcnt_humFrac : (s.setTcnt v).humFrac = s.humFrac := rfl
@[simp] theorem State.setTcnt_tempInt : (s.setTcnt v).tempInt = s.tempInt := rfl
@[simp] theorem State.setTcnt_tempFrac : (s.setTcnt v).tempFrac = s.tempFrac := rfl
@[simp] theorem State.setTcnt_capturedAt : (s.setTcnt v).capturedAt = s.capturedAt := rfl
@[simp] theorem State.setTcnt_inputs : (s.setTcnt v).inputs = s.inputs := rfl
@[simp] theorem State.setTcnt_stimulus : (s.setTcnt v).stimulus = s.stimulus := rfl
@[simp] theorem State.setTcnt_draws : (s.setTcnt v).draws = s.draws := rfl

end

section
variable (s : State) (v : BitVec 8)

@[simp] theorem State.setCnt_state : (s.setCnt v).state = s.state := rfl
@[simp] theorem State.setCnt_tcnt : (s.setCnt v).tcnt = s.tcnt := rfl
@[simp] theorem State.setCnt_ref : (s.setCnt v).ref = s.ref := rfl
@[simp] theorem State.setCnt_cnt : (s.setCnt v).cnt = v := rfl
@[simp] theorem State.setCnt_trace : (s.setCnt v).trace = s.trace := rfl
@[simp] theorem State.setCnt_tlen : (s.setCnt v).tlen = s.tlen := rfl
@[simp] theorem State.setCnt_sat : (s.setCnt v).sat = s.sat := rfl
@[simp] theorem State.setCnt_di : (s.setCnt v).di = s.di := rfl
@[simp] theorem State.setCnt_nbits : (s.setCnt v).nbits = s.nbits := rfl
@[simp] theorem State.setCnt_shift : (s.setCnt v).shift = s.shift := rfl
@[simp] theorem State.setCnt_outcome : (s.setCnt v).outcome = s.outcome := rfl
@[simp] theorem State.setCnt_timeout : (s.setCnt v).timeout = s.timeout := rfl
@[simp] theorem State.setCnt_humInt : (s.setCnt v).humInt = s.humInt := rfl
@[simp] theorem State.setCnt_humFrac : (s.setCnt v).humFrac = s.humFrac := rfl
@[simp] theorem State.setCnt_tempInt : (s.setCnt v).tempInt = s.tempInt := rfl
@[simp] theorem State.setCnt_tempFrac : (s.setCnt v).tempFrac = s.tempFrac := rfl
@[simp] theorem State.setCnt_capturedAt : (s.setCnt v).capturedAt = s.capturedAt := rfl
@[simp] theorem State.setCnt_inputs : (s.setCnt v).inputs = s.inputs := rfl
@[simp] theorem State.setCnt_stimulus : (s.setCnt v).stimulus = s.stimulus := rfl
@[simp] theorem State.setCnt_draws : (s.setCnt v).draws = s.draws := rfl

end

section
variable (s : State)

@[simp] theorem State.beginAttempt_state : s.beginAttempt.state = .hsLow := rfl
@[simp] theorem State.beginAttempt_tcnt : s.beginAttempt.tcnt = 0#15 := rfl
@[simp] theorem State.beginAttempt_ref : s.beginAttempt.ref = .high := rfl
@[simp] theorem State.beginAttempt_cnt : s.beginAttempt.cnt = 0#8 := rfl
@[simp] theorem State.beginAttempt_trace : s.beginAttempt.trace = s.trace := rfl
@[simp] theorem State.beginAttempt_tlen : s.beginAttempt.tlen = 0#7 := rfl
@[simp] theorem State.beginAttempt_sat : s.beginAttempt.sat = false := rfl
@[simp] theorem State.beginAttempt_di : s.beginAttempt.di = 0#7 := rfl
@[simp] theorem State.beginAttempt_nbits : s.beginAttempt.nbits = 0#6 := rfl
@[simp] theorem State.beginAttempt_shift : s.beginAttempt.shift = 0#40 := rfl
@[simp] theorem State.beginAttempt_outcome : s.beginAttempt.outcome = s.outcome := rfl
@[simp] theorem State.beginAttempt_timeout : s.beginAttempt.timeout = s.timeout := rfl
@[simp] theorem State.beginAttempt_humInt : s.beginAttempt.humInt = s.humInt := rfl
@[simp] theorem State.beginAttempt_humFrac : s.beginAttempt.humFrac = s.humFrac := rfl
@[simp] theorem State.beginAttempt_tempInt : s.beginAttempt.tempInt = s.tempInt := rfl
@[simp] theorem State.beginAttempt_tempFrac : s.beginAttempt.tempFrac = s.tempFrac := rfl
@[simp] theorem State.beginAttempt_capturedAt : s.beginAttempt.capturedAt = s.capturedAt := rfl
@[simp] theorem State.beginAttempt_inputs : s.beginAttempt.inputs = s.inputs := rfl
@[simp] theorem State.beginAttempt_stimulus : s.beginAttempt.stimulus = s.stimulus := rfl
@[simp] theorem State.beginAttempt_draws : s.beginAttempt.draws = s.draws := rfl

end

section
variable (s : State)

@[simp] theorem State.saturate_state : s.saturate.state = .decoding := rfl
@[simp] theorem State.saturate_tcnt : s.saturate.tcnt = s.tcnt := rfl
@[simp] theorem State.saturate_ref : s.saturate.ref = s.ref := rfl
@[simp] theorem State.saturate_cnt : s.saturate.cnt = BitVec.ofNat 8 satMax := rfl
@[simp] theorem State.saturate_trace : s.saturate.trace = s.trace := rfl
@[simp] theorem State.saturate_tlen : s.saturate.tlen = s.tlen := rfl
@[simp] theorem State.saturate_sat : s.saturate.sat = true := rfl
@[simp] theorem State.saturate_di : s.saturate.di = s.di := rfl
@[simp] theorem State.saturate_nbits : s.saturate.nbits = s.nbits := rfl
@[simp] theorem State.saturate_shift : s.saturate.shift = s.shift := rfl
@[simp] theorem State.saturate_outcome : s.saturate.outcome = s.outcome := rfl
@[simp] theorem State.saturate_timeout : s.saturate.timeout = s.timeout := rfl
@[simp] theorem State.saturate_humInt : s.saturate.humInt = s.humInt := rfl
@[simp] theorem State.saturate_humFrac : s.saturate.humFrac = s.humFrac := rfl
@[simp] theorem State.saturate_tempInt : s.saturate.tempInt = s.tempInt := rfl
@[simp] theorem State.saturate_tempFrac : s.saturate.tempFrac = s.tempFrac := rfl
@[simp] theorem State.saturate_capturedAt : s.saturate.capturedAt = s.capturedAt := rfl
@[simp] theorem State.saturate_inputs : s.saturate.inputs = s.inputs := rfl
@[simp] theorem State.saturate_stimulus : s.saturate.stimulus = s.stimulus := rfl
@[simp] theorem State.saturate_draws : s.saturate.draws = s.draws := rfl

end

section
variable (s : State) (l : Level)

@[simp] theorem State.recordTransition_state : (s.recordTransition l).state = s.state := rfl
@[simp] theorem State.recordTransition_tcnt : (s.recordTransition l).tcnt = s.tcnt := rfl
@[simp] theorem State.recordTransition_ref : (s.recordTransition l).ref = l := rfl
@[simp] theorem State.recordTransition_cnt : (s.recordTransition l).cnt = 0#8 := rfl
@[simp] theorem State.recordTransition_trace : (s.recordTransition l).trace = Memory.write s.trace s.tlen.toNat ⟨l, s.cnt⟩ := rfl
@[simp] theorem State.recordTransition_tlen : (s.recordTransition l).tlen = s.tlen + 1#7 := rfl
@[simp] theorem State.recordTransition_sat : (s.recordTransition l).sat = s.sat := rfl
@[simp] theorem State.recordTransition_di : (s.recordTransition l).di = s.di := rfl
@[simp] theorem State.recordTransition_nbits : (s.recordTransition l).nbits = s.nbits := rfl
@[simp] theorem State.recordTransition_shift : (s.recordTransition l).shift = s.shift := rfl
@[simp] theorem State.recordTransition_outcome : (s.recordTransition l).outcome = s.outcome := rfl
@[simp] theorem State.recordTransition_timeout : (s.recordTransition l).timeout = s.timeout := rfl
@[simp] theorem State.recordTransition_humInt : (s.recordTransition l).humInt = s.humInt := rfl
@[simp] theorem State.recordTransition_humFrac : (s.recordTransition l).humFrac = s.humFrac := rfl
@[simp] theorem State.recordTransition_tempInt : (s.recordTransition l).tempInt = s.tempInt := rfl
@[simp] theorem State.recordTransition_tempFrac : (s.recordTransition l).tempFrac = s.tempFrac := rfl
@[simp] theorem State.recordTransition_capturedAt : (s.recordTransition l).capturedAt = s.capturedAt := rfl
@[simp] theorem State.recordTransition_inputs : (s.recordTransition l).inputs = s.inputs := rfl
@[simp] theorem State.recordTransition_stimulus : (s.recordTransition l).stimulus = s.stimulus := rfl
@[simp] theorem State.recordTransition_draws : (s.recordTransition l).draws = s.draws := rfl

end

section
variable (s : State) (b : Bool)

@[simp] theorem State.appendBit_state : (s.appendBit b).state = s.state := rfl
@[simp] theorem State.appendBit_tcnt : (s.appendBit b).tcnt = s.tcnt := rfl
@[simp] theorem State.appendBit_ref : (s.appendBit b).ref = s.ref := rfl
@[simp] theorem State.appendBit_cnt : (s.appendBit b).cnt = s.cnt := rfl
@[simp] theorem State.appendBit_trace : (s.appendBit b).trace = s.trace := rfl
@[simp] theorem State.appendBit_tlen : (s.appendBit b).tlen = s.tlen := rfl
@[simp] theorem State.appendBit_sat : (s.appendBit b).sat = s.sat := rfl
@[simp] theorem State.appendBit_di : (s.appendBit b).di = s.di := rfl
@[simp] theorem State.appendBit_nbits : (s.appendBit b).nbits = s.nbits + 1#6 := rfl
@[simp] theorem State.appendBit_shift : (s.appendBit b).shift = shiftIn s.shift b := rfl
@[simp] theorem State.appendBit_outcome : (s.appendBit b).outcome = s.outcome := rfl
@[simp] theorem State.appendBit_timeout : (s.appendBit b).timeout = s.timeout := rfl
@[simp] theorem State.appendBit_humInt : (s.appendBit b).humInt = s.humInt := rfl
@[simp] theorem State.appendBit_humFrac : (s.appendBit b).humFrac = s.humFrac := rfl
@[simp] theorem State.appendBit_tempInt : (s.appendBit b).tempInt = s.tempInt := rfl
@[simp] theorem State.appendBit_tempFrac : (s.appendBit b).tempFrac = s.tempFrac := rfl
@[simp] theorem State.appendBit_capturedAt : (s.appendBit b).capturedAt = s.capturedAt := rfl
@[simp] theorem State.appendBit_inputs : (s.appendBit b).inputs = s.inputs := rfl
@[simp] theorem State.appendBit_stimulus : (s.appendBit b).stimulus = s.stimulus := rfl
@[simp] theorem State.appendBit_draws : (s.appendBit b).draws = s.draws := rfl

end

section
variable (s : State)

@[simp] theorem State.nextEntry_state : s.nextEntry.state = s.state := rfl
@[simp] theorem State.nextEntry_tcnt : s.nextEntry.tcnt = s.tcnt := rfl
@[simp] theorem State.nextEntry_ref : s.nextEntry.ref = s.ref := rfl
@[simp] theorem State.nextEntry_cnt : s.nextEntry.cnt = s.cnt := rfl
@[simp] theorem State.nextEntry_trace : s.nextEntry.trace = s.trace := rfl
@[simp] theorem State.nextEntry_tlen : s.nextEntry.tlen = s.tlen := rfl
@[simp] theorem State.nextEntry_sat : s.nextEntry.sat = s.sat := rfl
@[simp] theorem State.nextEntry_di : s.nextEntry.di = s.di + 1#7 := rfl
@[simp] theorem State.nextEntry_nbits : s.nextEntry.nbits = s.nbits := rfl
@[simp] theorem State.nextEntry_shift : s.nextEntry.shift = s.shift := rfl
@[simp] theorem State.nextEntry_outcome : s.nextEntry.outcome = s.outcome := rfl
@[simp] theorem State.nextEntry_timeout : s.nextEntry.timeout = s.timeout := rfl
@[simp] theorem State.nextEntry_humInt : s.nextEntry.humInt = s.humInt := rfl
@[simp] theorem State.nextEntry_humFrac : s.nextEntry.humFrac = s.humFrac := rfl
@[simp] theorem State.nextEntry_tempInt : s.nextEntry.tempInt = s.tempInt := rfl
@[simp] theorem State.nextEntry_tempFrac : s.nextEntry.tempFrac = s.tempFrac := rfl
@[simp] theorem State.nextEntry_capturedAt : s.nextEntry.capturedAt = s.capturedAt := rfl
@[simp] theorem State.nextEntry_inputs : s.nextEntry.inputs = s.inputs := rfl
@[simp] theorem State.nextEntry_stimulus : s.nextEntry.stimulus = s.stimulus := rfl
@[simp] theorem State.nextEntry_draws : s.nextEntry.draws = s.draws := rfl

end

section
variable (s : State) (st : AttemptState) (o : DecodeOutcome) (hi hf ti tf : Byte) (v : Timestamp)

@[simp] theorem State.publish_state : (s.publish st o hi hf ti tf v).state = st := rfl
@[simp] theorem State.publish_tcnt : (s.publish st o hi hf ti tf v).tcnt = s.tcnt := rfl
@[simp] theorem State.publish_ref : (s.publish st o hi hf ti tf v).ref = s.ref := rfl
@[simp] theorem State.publish_cnt : (s.publish st o hi hf ti tf v).cnt = s.cnt := rfl
@[simp] theorem State.publish_trace : (s.publish st o hi hf ti tf v).trace = s.trace := rfl
@[simp] theorem State.publish_tlen : (s.publish st o hi hf ti tf v).tlen = s.tlen := rfl
@[simp] theorem State.publish_sat : (s.publish st o hi hf ti tf v).sat = s.sat := rfl
@[simp] theorem State.publish_di : (s.publish st o hi hf ti tf v).di = s.di := rfl
@[simp] theorem State.publish_nbits : (s.publish st o hi hf ti tf v).nbits = s.nbits := rfl
@[simp] theorem State.publish_shift : (s.publish st o hi hf ti tf v).shift = s.shift := rfl
@[simp] theorem State.publish_outcome : (s.publish st o hi hf ti tf v).outcome = o := rfl
@[simp] theorem State.publish_timeout : (s.publish st o hi hf ti tf v).timeout = s.sat := rfl
@[simp] theorem State.publish_humInt : (s.publish st o hi hf ti tf v).humInt = hi := rfl
@[simp] theorem State.publish_humFrac : (s.publish st o hi hf ti tf v).humFrac = hf := rfl
@[simp] theorem State.publish_tempInt : (s.publish st o hi hf ti tf v).tempInt = ti := rfl
@[simp] theorem State.publish_tempFrac : (s.publish st o hi hf ti tf v).tempFrac = tf := rfl
@[simp] theorem State.publish_capturedAt : (s.publish st o hi hf ti tf v).capturedAt = v := rfl
@[simp] theorem State.publish_inputs : (s.publish st o hi hf ti tf v).inputs = s.inputs := rfl
@[simp] theorem State.publish_stimulus : (s.publish st o hi hf ti tf v).stimulus = s.stimulus := rfl
@[simp] theorem State.publish_draws : (s.publish st o hi hf ti tf v).draws = s.draws := rfl

end

section
variable (s : State)

@[simp] theorem State.resetRegisters_state : s.resetRegisters.state = .idle := rfl
@[simp] theorem State.resetRegisters_tcnt : s.resetRegisters.tcnt = 0#15 := rfl
@[simp] theorem State.resetRegisters_ref : s.resetRegisters.ref = .high := rfl
@[simp] theorem State.resetRegisters_cnt : s.resetRegisters.cnt = 0#8 := rfl
@[simp] theorem State.resetRegisters_trace : s.resetRegisters.trace = s.trace := rfl
@[simp] theorem State.resetRegisters_tlen : s.resetRegisters.tlen = 0#7 := rfl
@[simp] theorem State.resetRegisters_sat : s.resetRegisters.sat = false := rfl
@[simp] theorem State.resetRegisters_di : s.resetRegisters.di = 0#7 := rfl
@[simp] theorem State.resetRegisters_nbits : s.resetRegisters.nbits = 0#6 := rfl
@[simp] theorem State.resetRegisters_shift : s.resetRegisters.shift = 0#40 := rfl
@[simp] theorem State.resetRegisters_outcome : s.resetRegisters.outcome = .none := rfl
@[simp] theorem State.resetRegisters_timeout : s.resetRegisters.timeout = false := rfl
@[simp] theorem State.resetRegisters_humInt : s.resetRegisters.humInt = 0x00#8 := rfl
@[simp] theorem State.resetRegisters_humFrac : s.resetRegisters.humFrac = 0x00#8 := rfl
@[simp] theorem State.resetRegisters_tempInt : s.resetRegisters.tempInt = 0x00#8 := rfl
@[simp] theorem State.resetRegisters_tempFrac : s.resetRegisters.tempFrac = 0x00#8 := rfl
@[simp] theorem State.resetRegisters_capturedAt : s.resetRegisters.capturedAt = 0#Config.wTs := rfl
@[simp] theorem State.resetRegisters_inputs : s.resetRegisters.inputs = s.inputs := rfl
@[simp] theorem State.resetRegisters_stimulus : s.resetRegisters.stimulus = s.stimulus := rfl
@[simp] theorem State.resetRegisters_draws : s.resetRegisters.draws = s.draws := rfl

end

section
variable (s : State) (x : Inputs)

@[simp] theorem State.withInputs_state : (s.withInputs x).state = s.state := rfl
@[simp] theorem State.withInputs_tcnt : (s.withInputs x).tcnt = s.tcnt := rfl
@[simp] theorem State.withInputs_ref : (s.withInputs x).ref = s.ref := rfl
@[simp] theorem State.withInputs_cnt : (s.withInputs x).cnt = s.cnt := rfl
@[simp] theorem State.withInputs_trace : (s.withInputs x).trace = s.trace := rfl
@[simp] theorem State.withInputs_tlen : (s.withInputs x).tlen = s.tlen := rfl
@[simp] theorem State.withInputs_sat : (s.withInputs x).sat = s.sat := rfl
@[simp] theorem State.withInputs_di : (s.withInputs x).di = s.di := rfl
@[simp] theorem State.withInputs_nbits : (s.withInputs x).nbits = s.nbits := rfl
@[simp] theorem State.withInputs_shift : (s.withInputs x).shift = s.shift := rfl
@[simp] theorem State.withInputs_outcome : (s.withInputs x).outcome = s.outcome := rfl
@[simp] theorem State.withInputs_timeout : (s.withInputs x).timeout = s.timeout := rfl
@[simp] theorem State.withInputs_humInt : (s.withInputs x).humInt = s.humInt := rfl
@[simp] theorem State.withInputs_humFrac : (s.withInputs x).humFrac = s.humFrac := rfl
@[simp] theorem State.withInputs_tempInt : (s.withInputs x).tempInt = s.tempInt := rfl
@[simp] theorem State.withInputs_tempFrac : (s.withInputs x).tempFrac = s.tempFrac := rfl
@[simp] theorem State.withInputs_capturedAt : (s.withInputs x).capturedAt = s.capturedAt := rfl
@[simp] theorem State.withInputs_inputs : (s.withInputs x).inputs = x := rfl
@[simp] theorem State.withInputs_stimulus : (s.withInputs x).stimulus = s.stimulus := rfl
@[simp] theorem State.withInputs_draws : (s.withInputs x).draws = s.draws := rfl

end

section
variable (s : State)

@[simp] theorem State.clockInputs_state : s.clockInputs.state = s.state := by
  unfold State.clockInputs; cases s.stimulus <;> rfl
@[simp] theorem State.clockInputs_tcnt : s.clockInputs.tcnt = s.tcnt := by
  unfold State.clockInputs; cases s.stimulus <;> rfl
@[simp] theorem State.clockInputs_ref : s.clockInputs.ref = s.ref := by
  unfold State.clockInputs; cases s.stimulus <;> rfl
@[simp] theorem State.clockInputs_cnt : s.clockInputs.cnt = s.cnt := by
  unfold State.clockInputs; cases s.stimulus <;> rfl
@[simp] theorem State.clockInputs_trace : s.clockInputs.trace = s.trace := by
  unfold State.clockInputs; cases s.stimulus <;> rfl
@[simp] theorem State.clockInputs_tlen : s.clockInputs.tlen = s.tlen := by
  unfold State.clockInputs; cases s.stimulus <;> rfl
@[simp] theorem State.clockInputs_sat : s.clockInputs.sat = s.sat := by
  unfold State.clockInputs; cases s.stimulus <;> rfl
@[simp] theorem State.clockInputs_di : s.clockInputs.di = s.di := by
  unfold State.clockInputs; cases s.stimulus <;> rfl
@[simp] theorem State.clockInputs_nbits : s.clockInputs.nbits = s.nbits := by
  unfold State.clockInputs; cases s.stimulus <;> rfl
@[simp] theorem State.clockInputs_shift : s.clockInputs.shift = s.shift := by
  unfold State.clockInputs; cases s.stimulus <;> rfl
@[simp] theorem State.clockInputs_outcome : s.clockInputs.outcome = s.outcome := by
  unfold State.clockInputs; cases s.stimulus <;> rfl
@[simp] theorem State.clockInputs_timeout : s.clockInputs.timeout = s.timeout := by
  unfold State.clockInputs; cases s.stimulus <;> rfl
@[simp] theorem State.clockInputs_humInt : s.clockInputs.humInt = s.humInt := by
  unfold State.clockInputs; cases s.stimulus <;> rfl
@[simp] theorem State.clockInputs_humFrac : s.clockInputs.humFrac = s.humFrac := by
  unfold State.clockInputs; cases s.stimulus <;> rfl
@[simp] theorem State.clockInputs_tempInt : s.clockInputs.tempInt = s.tempInt := by
  unfold State.clockInputs; cases s.stimulus <;> rfl
@[simp] theorem State.clockInputs_tempFrac : s.clockInputs.tempFrac = s.tempFrac := by
  unfold State.clockInputs; cases s.stimulus <;> rfl
@[simp] theorem State.clockInputs_capturedAt : s.clockInputs.capturedAt = s.capturedAt := by
  unfold State.clockInputs; cases s.stimulus <;> rfl
@[simp] theorem State.clockInputs_draws : s.clockInputs.draws = s.draws + 1 := by
  unfold State.clockInputs; cases s.stimulus <;> rfl

/-- The edge moves the queue of decided inputs on by one. -/
theorem State.clockInputs_of_stimulus {x : Inputs} {xs : List Inputs} (h : s.stimulus = x :: xs) :
    s.clockInputs.inputs = x ∧ s.clockInputs.stimulus = xs := by
  simp [State.clockInputs, h]

/-- With nothing decided the next inputs are a free draw. -/
theorem State.clockInputs_of_empty (h : s.stimulus = []) :
    s.clockInputs.inputs = Config.freeInputs s.draws ∧ s.clockInputs.stimulus = [] := by
  simp [State.clockInputs, h]

end

@[simp] theorem clockEdge_next (s : State) : clockEdge (.next s) = .next s.clockInputs := rfl
@[simp] theorem clockEdge_fault (f : Fault) : clockEdge (.fault f) = .fault f := rfl
@[simp] theorem clockEdge_refused (r : Refusal) : clockEdge (.refused r) = .refused r := rfl

/-- The edge answers a next state only after a next state. -/
theorem clockEdge_eq_next {o : Host.Outcome State Fault Refusal} {t : State}
    (h : clockEdge o = .next t) : ∃ u, o = .next u ∧ t = u.clockInputs := by
  cases o with
  | next u => exact ⟨u, rfl, by simpa using h.symm⟩
  | fault f => simp at h
  | refused r => simp at h

end Sys2Proof.Machine
end

