-- ==== Sys2Proof/Laws/Dispatch.lean ====
section
/-! SUPPORT. Laws/Dispatch.lean: which rule a cycle runs. -/

namespace Sys2Proof.Machine

/-- Every packed word has a row, that of the fields it was packed from (R98). -/
theorem rowOf_packWord (st : AttemptState) (r t u k c : Bool) :
    rowOf (packWord st r t u k c) = some
      (if r then .reset
       else match st with
        | .idle => if t then .attemptRead else .idleWait
        | .hsLow => if u then .hsLowTick else .hsLowWait
        | .hsHigh => if u then .hsHighTick else .hsHighWait
        | .sampling => if k then (if c then .sampleSame else .sampleChange) else .sampleWait
        | .decoding => if c then .validate else .decodeEntry
        | .success => .successDone
        | .failure => .failureDone
        | .unused => .unusedState) := by
  cases st <;> revert r t u k c <;> decide

/-- The fields of a packed word are what it was packed from. -/
theorem build_packWord (st : AttemptState) (r t u k c : Bool) (row : Row) :
    row.build (packWord st r t u k c) =
      match row with
      | .reset => .reset st t u k c
      | .attemptRead => .attemptRead u k c
      | .idleWait => .idleWait u k c
      | .hsLowWait => .hsLowWait t k c
      | .hsLowTick => .hsLowTick t k c
      | .hsHighWait => .hsHighWait t k c
      | .hsHighTick => .hsHighTick t k c
      | .sampleWait => .sampleWait t u c
      | .sampleSame => .sampleSame t u
      | .sampleChange => .sampleChange t u
      | .decodeEntry => .decodeEntry t u k
      | .validate => .validate t u k
      | .successDone => .successDone t u k c
      | .failureDone => .failureDone t u k c
      | .unusedState => .unusedState t u k c := by
  have hs : stateField (packWord st r t u k c) = st := by
    cases st <;> revert r t u k c <;> decide
  have ht : startField (packWord st r t u k c) = t := by
    cases st <;> revert r t u k c <;> decide
  have hu : usTickField (packWord st r t u k c) = u := by
    cases st <;> revert r t u k c <;> decide
  have hk : sampleTickField (packWord st r t u k c) = k := by
    cases st <;> revert r t u k c <;> decide
  have hc : condField (packWord st r t u k c) = c := by
    cases st <;> revert r t u k c <;> decide
  cases row <;> simp [Row.build, hs, ht, hu, hk, hc]

/-- The meaning of a row: the untested bits of a word are not read (R99). -/
def rowMeaning (r : Row) (s : State) : Host.Outcome State Fault Refusal :=
  match r with
  | .reset => execReset s
  | .attemptRead => execAttemptRead s
  | .idleWait => execIdleWait s
  | .hsLowWait => execHsLowWait s
  | .hsLowTick => execHsLowTick s
  | .hsHighWait => execHsHighWait s
  | .hsHighTick => execHsHighTick s
  | .sampleWait => execSampleWait s
  | .sampleSame => execSampleSame s
  | .sampleChange => execSampleChange s
  | .decodeEntry => execDecodeEntry s
  | .validate => execValidate s
  | .successDone => execSuccessDone s
  | .failureDone => execFailureDone s
  | .unusedState => execUnusedState s

theorem exec_eq_rowMeaning (i : Instr) (s : State) : exec i s = rowMeaning i.row s := by
  cases i <;> rfl

theorem row_build (r : Row) (w : Byte) : (r.build w).row = r := by cases r <;> rfl

/-- The row the present cycle runs (R98). -/
def cycleRow (s : State) : Row :=
  if s.inputs.rst then .reset
  else match s.state with
    | .idle => if s.inputs.start then .attemptRead else .idleWait
    | .hsLow => if s.inputs.usTick then .hsLowTick else .hsLowWait
    | .hsHigh => if s.inputs.usTick then .hsHighTick else .hsHighWait
    | .sampling =>
      if s.inputs.sampleTick then
        (if s.inputs.lineIn = s.ref then .sampleSame else .sampleChange)
      else .sampleWait
    | .decoding => if s.di = s.tlen then .validate else .decodeEntry
    | .success => .successDone
    | .failure => .failureDone
    | .unused => .unusedState

theorem rowOf_dispatchWord (s : State) : rowOf (dispatchWord s) = some (cycleRow s) := by
  unfold dispatchWord
  rw [rowOf_packWord]
  unfold cycleRow condBit
  cases hst : s.state <;> simp

/-- One step, said once: the rule of the cycle's row, then the clock edge. -/
theorem step_eq (s : State) : step s = clockEdge (rowMeaning (cycleRow s) s) := by
  unfold step fetchBytes decode
  simp only [rowOf_dispatchWord]
  rw [exec_eq_rowMeaning, row_build]

end Sys2Proof.Machine
end

