-- ==== Sys2Proof/Laws/Memory.lean ====
section
/-! SUPPORT. Laws/Memory.lean: the laws of the trace buffer: reading back a write, leaving other entries
alone, keeping the canonical form. -/

namespace Sys2Proof.Machine

@[simp] theorem Memory.lookup_nil (a : Nat) : Memory.lookup [] a = none := rfl

/-- The entry just written is the one found. -/
@[simp] theorem Memory.lookup_write_same (m : Memory) (a : Nat) (e : Observation) :
    Memory.lookup (Memory.write m a e) a = some e := by
  induction m with
  | nil => simp [Memory.write, Memory.lookup]
  | cons c m ih =>
    obtain ⟨b, f⟩ := c
    simp only [Memory.write]
    split
    · simp [Memory.lookup]
    · split
      · simp [Memory.lookup]
      · simp [Memory.lookup, *]

/-- A write leaves every other entry alone. -/
theorem Memory.lookup_write_other (m : Memory) {a c : Nat} (e : Observation) (h : c ≠ a) :
    Memory.lookup (Memory.write m a e) c = Memory.lookup m c := by
  induction m with
  | nil => simp [Memory.write, Memory.lookup, h]
  | cons d m ih =>
    obtain ⟨b, f⟩ := d
    simp only [Memory.write]
    split
    · simp [Memory.lookup, h]
    · split
      · next hab => subst hab; simp [Memory.lookup, h]
      · simp [Memory.lookup, ih]

@[simp] theorem Memory.read_write_same (m : Memory) (a : Nat) (e : Observation) :
    Memory.read (Memory.write m a e) a = e := by simp [Memory.read]

theorem Memory.read_write_other (m : Memory) {a c : Nat} (e : Observation) (h : c ≠ a) :
    Memory.read (Memory.write m a e) c = Memory.read m c := by
  simp [Memory.read, Memory.lookup_write_other m e h]

/-- The indices listed after a write are those listed before and the one written. -/
theorem Memory.mem_write_index (m : Memory) (a : Nat) (e : Observation) {i : Nat}
    (h : i ∈ (Memory.write m a e).map Prod.fst) : i = a ∨ i ∈ m.map Prod.fst := by
  induction m with
  | nil => simpa [Memory.write] using h
  | cons c m ih =>
    obtain ⟨b, f⟩ := c
    simp only [Memory.write] at h
    split at h
    · simpa using h
    · split at h
      · next hab => subst hab; simp at h ⊢; tauto
      · simp only [List.map_cons, List.mem_cons] at h ⊢
        rcases h with h | h
        · exact .inr (.inl h)
        · rcases ih h with h | h
          · exact .inl h
          · exact .inr (.inr h)

/-- A write keeps the indices strictly rising. -/
theorem Memory.write_rising (m : Memory) (a : Nat) (e : Observation)
    (h : (m.map Prod.fst).Pairwise (· < ·)) :
    ((Memory.write m a e).map Prod.fst).Pairwise (· < ·) := by
  induction m with
  | nil => simp [Memory.write]
  | cons c m ih =>
    obtain ⟨b, f⟩ := c
    simp only [List.map_cons, List.pairwise_cons] at h
    simp only [Memory.write]
    split
    · next hab =>
      simp only [List.map_cons, List.pairwise_cons, List.mem_cons]
      refine ⟨?_, h⟩
      rintro i (rfl | hi)
      · exact hab
      · exact hab.trans (h.1 i hi)
    · split
      · next hab => subst hab; simpa [List.pairwise_cons] using h
      · next h1 h2 =>
        simp only [List.map_cons, List.pairwise_cons]
        refine ⟨fun i hi => ?_, ih h.2⟩
        rcases Memory.mem_write_index m a e hi with rfl | hi
        · omega
        · exact h.1 i hi

/-- Every memory operation keeps the canonical form: TraceWrite is the only one that writes. -/
theorem Memory.wf_write {m : Memory} {a : Nat} (e : Observation) (ha : a < traceCap)
    (h : Memory.wf m) : Memory.wf (Memory.write m a e) := by
  refine ⟨Memory.write_rising m a e h.1, fun c hc => ?_⟩
  rcases Memory.mem_write_index m a e (List.mem_map_of_mem hc) with hi | hi
  · omega
  · obtain ⟨d, hd, hdc⟩ := List.mem_map.mp hi
    exact hdc ▸ h.2 d hd

theorem Memory.wf_nil : Memory.wf [] := by simp [Memory.wf]

/-- The access guard answers a next state exactly at the indices that exist. -/
theorem withTraceIndex_eq_next {i : Nat} {after t : State}
    (h : withTraceIndex i after = .next t) : i < traceCap ∧ t = after := by
  unfold withTraceIndex at h
  split at h
  · exact ⟨‹_›, by simpa using h.symm⟩
  · simp at h

@[simp] theorem withTraceIndex_of_lt {i : Nat} {after : State} (h : i < traceCap) :
    withTraceIndex i after = .next after := by simp [withTraceIndex, h]

theorem withTraceIndex_of_ge {i : Nat} {after : State} (h : traceCap ≤ i) :
    withTraceIndex i after = .fault (.traceIndexOutOfRange i) := by
  simp [withTraceIndex, Nat.not_lt.mpr h]

end Sys2Proof.Machine
end

