-- ==== Sys2Proof/Laws/Exec.lean ====
section
/-! SUPPORT. Laws/Exec.lean: one spec lemma per shared operation, and what any rule can do. -/

namespace Sys2Proof.Machine

/-! ### Constants -/

theorem nReqLow_eq : nReqLow = 20000 := rfl
theorem nReqHigh_eq : nReqHigh = 40 := rfl
theorem satMax_eq : satMax = 255 := rfl
theorem traceCap_eq : traceCap = 85 := rfl
theorem frameBits_eq : frameBits = 40 := rfl

/-! ### Counters -/

theorem tcntPlusOne_of_lt {s : State} (h : s.tcnt.toNat < 32767) : tcntPlusOne s = s.tcnt + 1#15 := by
  simp only [tcntPlusOne, Nat.reducePow]
  rw [if_pos (by omega)]

theorem cntPlusOne_of_lt {s : State} (h : s.cnt.toNat < 255) : cntPlusOne s = s.cnt + 1#8 := by
  simp only [cntPlusOne, Nat.reducePow]
  rw [if_pos (by omega)]

theorem toNat_tcntPlusOne {s : State} (h : s.tcnt.toNat < 32767) :
    (tcntPlusOne s).toNat = s.tcnt.toNat + 1 := by
  rw [tcntPlusOne_of_lt h, BitVec.toNat_add, BitVec.toNat_ofNat]
  omega

theorem toNat_cntPlusOne {s : State} (h : s.cnt.toNat < 255) :
    (cntPlusOne s).toNat = s.cnt.toNat + 1 := by
  rw [cntPlusOne_of_lt h, BitVec.toNat_add, BitVec.toNat_ofNat]
  omega

theorem toNat_succ7 {v : BitVec 7} (h : v.toNat < 127) : (v + 1#7).toNat = v.toNat + 1 := by
  rw [BitVec.toNat_add, BitVec.toNat_ofNat]; omega

theorem toNat_succ6 {v : BitVec 6} (h : v.toNat < 63) : (v + 1#6).toNat = v.toNat + 1 := by
  rw [BitVec.toNat_add, BitVec.toNat_ofNat]; omega

/-! ### The handshake -/

/-- The last strobe of a handshake state ends it. -/
theorem handshakeTick_last {n : Nat} {after : AttemptState} {s : State} (h : s.tcnt.toNat = n - 1) :
    handshakeTick n after s = (s.goto after).setTcnt 0#15 := by
  unfold handshakeTick; rw [if_pos h]

/-- Every other strobe is counted. -/
theorem handshakeTick_count {n : Nat} {after : AttemptState} {s : State} (h : s.tcnt.toNat ≠ n - 1) :
    handshakeTick n after s = s.setTcnt (tcntPlusOne s) := by
  unfold handshakeTick; rw [if_neg h]

/-! ### Sampling and decoding -/

theorem execSampleSame_last {s : State} (h : s.cnt.toNat = 254) : execSampleSame s = .next s.saturate := by
  unfold execSampleSame; rw [if_pos (by rw [satMax_eq]; omega)]

theorem execSampleSame_count {s : State} (h : s.cnt.toNat ≠ 254) :
    execSampleSame s = .next (s.setCnt (cntPlusOne s)) := by
  unfold execSampleSame; rw [if_neg (by rw [satMax_eq]; omega)]

/-- The state after a recorded transition: the cap ends sampling. -/
def afterChange (s : State) : State :=
  if s.tlen.toNat + 1 = traceCap then (s.recordTransition s.inputs.lineIn).goto .decoding
  else s.recordTransition s.inputs.lineIn

theorem execSampleChange_of_lt {s : State} (h : s.tlen.toNat < 85) :
    execSampleChange s = .next (afterChange s) := by
  unfold execSampleChange afterChange
  exact withTraceIndex_of_lt (by rw [traceCap_eq]; exact h)

theorem execSampleChange_of_ge {s : State} (h : 85 ≤ s.tlen.toNat) :
    execSampleChange s = .fault (.traceIndexOutOfRange s.tlen.toNat) := by
  unfold execSampleChange
  exact withTraceIndex_of_ge (by rw [traceCap_eq]; exact h)

/-- The state after one decoded entry. -/
def afterEntry (s : State) : State :=
  if considered s.di.toNat ∧ s.nbits.toNat < frameBits then
    (s.appendBit (classify (Memory.read s.trace s.di.toNat).durationTicks)).nextEntry
  else s.nextEntry

theorem execDecodeEntry_of_lt {s : State} (h : s.di.toNat < 85) :
    execDecodeEntry s = .next (afterEntry s) := by
  unfold execDecodeEntry afterEntry
  exact withTraceIndex_of_lt (by rw [traceCap_eq]; exact h)

theorem execDecodeEntry_of_ge {s : State} (h : 85 ≤ s.di.toNat) :
    execDecodeEntry s = .fault (.traceIndexOutOfRange s.di.toNat) := by
  unfold execDecodeEntry
  exact withTraceIndex_of_ge (by rw [traceCap_eq]; exact h)

/-- VALIDATE ends in one of its three ways. -/
theorem execValidate_cases (s : State) :
    (s.nbits.toNat < 40 ∧ execValidate s = .next (s.publishFailure .incompleteFrame)) ∨
    (40 ≤ s.nbits.toNat ∧ checksumOk s.shift = true ∧ execValidate s = .next s.publishSuccess) ∨
    (40 ≤ s.nbits.toNat ∧ checksumOk s.shift = false ∧
      execValidate s = .next (s.publishFailure .checksumMismatch)) := by
  unfold execValidate validationOutcome
  rw [frameBits_eq]
  by_cases h : s.nbits.toNat < 40
  · exact .inl ⟨h, by rw [if_pos h]⟩
  · rw [if_neg h]
    cases hc : checksumOk s.shift
    · exact .inr (.inr ⟨by omega, rfl, by simp⟩)
    · exact .inr (.inl ⟨by omega, rfl, by simp⟩)

/-! ### Which row a cycle runs, row by row -/

/-- The condition under which a cycle runs a row (R98). -/
def RowCondition (s : State) : Row → Prop
  | .reset => s.inputs.rst = true
  | .attemptRead => s.inputs.rst = false ∧ s.state = .idle ∧ s.inputs.start = true
  | .idleWait => s.inputs.rst = false ∧ s.state = .idle ∧ s.inputs.start = false
  | .hsLowWait => s.inputs.rst = false ∧ s.state = .hsLow ∧ s.inputs.usTick = false
  | .hsLowTick => s.inputs.rst = false ∧ s.state = .hsLow ∧ s.inputs.usTick = true
  | .hsHighWait => s.inputs.rst = false ∧ s.state = .hsHigh ∧ s.inputs.usTick = false
  | .hsHighTick => s.inputs.rst = false ∧ s.state = .hsHigh ∧ s.inputs.usTick = true
  | .sampleWait => s.inputs.rst = false ∧ s.state = .sampling ∧ s.inputs.sampleTick = false
  | .sampleSame =>
    s.inputs.rst = false ∧ s.state = .sampling ∧ s.inputs.sampleTick = true ∧ s.inputs.lineIn = s.ref
  | .sampleChange =>
    s.inputs.rst = false ∧ s.state = .sampling ∧ s.inputs.sampleTick = true ∧ s.inputs.lineIn ≠ s.ref
  | .decodeEntry => s.inputs.rst = false ∧ s.state = .decoding ∧ s.di ≠ s.tlen
  | .validate => s.inputs.rst = false ∧ s.state = .decoding ∧ s.di = s.tlen
  | .successDone => s.inputs.rst = false ∧ s.state = .success
  | .failureDone => s.inputs.rst = false ∧ s.state = .failure
  | .unusedState => s.inputs.rst = false ∧ s.state = .unused

/-- The row a cycle runs meets its condition. -/
theorem rowCondition_cycleRow (s : State) : RowCondition s (cycleRow s) := by
  unfold cycleRow
  cases hr : s.inputs.rst with
  | true => simp [RowCondition, hr]
  | false =>
    cases hs : s.state with
    | idle => cases h : s.inputs.start <;> simp [RowCondition, hr, hs, h]
    | hsLow => cases h : s.inputs.usTick <;> simp [RowCondition, hr, hs, h]
    | hsHigh => cases h : s.inputs.usTick <;> simp [RowCondition, hr, hs, h]
    | sampling =>
      cases h : s.inputs.sampleTick
      · simp [RowCondition, hr, hs, h]
      · by_cases hl : s.inputs.lineIn = s.ref <;> simp [RowCondition, hr, hs, h, hl]
    | decoding => by_cases hl : s.di = s.tlen <;> simp [RowCondition, hr, hs, hl]
    | success => simp [RowCondition, hr, hs]
    | failure => simp [RowCondition, hr, hs]
    | unused => simp [RowCondition, hr, hs]

/-- Conditions exclude each other, so a met condition names the row. -/
theorem cycleRow_eq_of_condition {s : State} {r : Row} (h : RowCondition s r) : cycleRow s = r := by
  unfold cycleRow
  cases r <;> simp only [RowCondition] at h <;> simp [h]

theorem cycleRow_eq_iff (s : State) (r : Row) : cycleRow s = r ↔ RowCondition s r :=
  ⟨fun h => h ▸ rowCondition_cycleRow s, cycleRow_eq_of_condition⟩

/-- One step under a row's condition. -/
theorem step_of_condition {s : State} {r : Row} (h : RowCondition s r) :
    step s = clockEdge (rowMeaning r s) := by rw [step_eq, cycleRow_eq_of_condition h]

/-! ### What any rule can do -/

/-- No rule writes the inputs of its cycle, the queue of decided inputs, or the draw counter. -/
theorem rowMeaning_ports {r : Row} {s t : State} (h : rowMeaning r s = .next t) :
    t.inputs = s.inputs ∧ t.stimulus = s.stimulus ∧ t.draws = s.draws := by
  cases r <;> simp only [rowMeaning] at h
  case sampleSame =>
    by_cases hc : s.cnt.toNat = 254
    · rw [execSampleSame_last hc] at h; cases h; simp
    · rw [execSampleSame_count hc] at h; cases h; simp
  case sampleChange =>
    obtain ⟨-, rfl⟩ := withTraceIndex_eq_next h
    split <;> simp
  case decodeEntry =>
    obtain ⟨-, rfl⟩ := withTraceIndex_eq_next h
    split <;> simp
  case validate =>
    rcases execValidate_cases s with ⟨-, hv⟩ | ⟨-, -, hv⟩ | ⟨-, -, hv⟩ <;> rw [hv] at h <;> cases h <;>
      simp [State.publishFailure, State.publishSuccess]
  case hsLowTick => cases h; unfold handshakeTick; split <;> simp
  case hsHighTick => cases h; unfold handshakeTick; split <;> simp
  all_goals (cases h; simp)

/-- The rules other than the two that access TRACE always answer a next state. -/
theorem rowMeaning_next (s : State) {r : Row} (h1 : r = .sampleChange → s.tlen.toNat < 85)
    (h2 : r = .decodeEntry → s.di.toNat < 85) : ∃ t, rowMeaning r s = .next t := by
  cases r
  case sampleSame =>
    by_cases hc : s.cnt.toNat = 254
    · exact ⟨_, execSampleSame_last hc⟩
    · exact ⟨_, execSampleSame_count hc⟩
  case sampleChange => exact ⟨_, execSampleChange_of_lt (h1 rfl)⟩
  case decodeEntry => exact ⟨_, execDecodeEntry_of_lt (h2 rfl)⟩
  case validate =>
    rcases execValidate_cases s with ⟨-, hv⟩ | ⟨-, -, hv⟩ | ⟨-, -, hv⟩ <;> exact ⟨_, hv⟩
  all_goals exact ⟨_, rfl⟩

/-- No rule refuses. -/
theorem rowMeaning_ne_refused (r : Row) (s : State) (e : Refusal) : rowMeaning r s ≠ .refused e := by
  intro h
  by_cases h1 : r = .sampleChange ∧ 85 ≤ s.tlen.toNat
  · rw [h1.1] at h; rw [show rowMeaning .sampleChange s = _ from execSampleChange_of_ge h1.2] at h; cases h
  · by_cases h2 : r = .decodeEntry ∧ 85 ≤ s.di.toNat
    · rw [h2.1] at h; rw [show rowMeaning .decodeEntry s = _ from execDecodeEntry_of_ge h2.2] at h; cases h
    · obtain ⟨t, ht⟩ := rowMeaning_next s (r := r) (fun hr => Nat.lt_of_not_le fun hh => h1 ⟨hr, hh⟩)
        (fun hr => Nat.lt_of_not_le fun hh => h2 ⟨hr, hh⟩)
      rw [ht] at h; cases h

/-- A step that answers a next state ran its row's rule and then the edge. -/
theorem step_inv {s t : State} (h : step s = .next t) :
    ∃ u, rowMeaning (cycleRow s) s = .next u ∧ t = u.clockInputs := by
  rw [step_eq] at h
  exact clockEdge_eq_next h

end Sys2Proof.Machine
end

