-- ==== Sys2Proof/Laws/Frame.lean ====
section
/-! SUPPORT. Laws/Frame.lean: the pure functions of the decoder, one entry at a time. -/

namespace Sys2Proof.Machine

/-- The selector in arithmetic. -/
theorem considered_iff (i : Nat) : considered i = true ↔ 4 ≤ i ∧ i % 2 = 0 := by
  have h : considered i = decide (4 ≤ i ∧ (i - 4) % 2 = 0) := rfl
  rw [h, decide_eq_true_eq]
  omega

/-- The classifier in arithmetic. -/
theorem classify_iff (d : Byte) : classify d = true ↔ 16 < d.toNat := by
  have h : classify d = decide (16 < d.toNat) := rfl
  rw [h, decide_eq_true_eq]

/-- The considered bits of a longer trace: those of the first part, then those of the rest. -/
theorem consideredBits_append (i : Nat) (t u : List Observation) :
    consideredBits i (t ++ u) = consideredBits i t ++ consideredBits (i + t.length) u := by
  induction t generalizing i with
  | nil => simp [consideredBits]
  | cons e t ih =>
    have hl : i + (e :: t).length = (i + 1) + t.length := by simp [Nat.add_comm, Nat.add_left_comm]
    rw [hl, List.cons_append]
    simp only [consideredBits]
    split <;> simp [ih]

/-- How many bits a trace gives. -/
theorem length_consideredBits (i : Nat) (t : List Observation) :
    (consideredBits i t).length = (List.range' i t.length).countP considered := by
  induction t generalizing i with
  | nil => rfl
  | cons e t ih =>
    rw [List.length_cons, List.range'_succ, List.countP_cons]
    simp only [consideredBits]
    split <;> simp_all

theorem length_consideredBits_zero (t : List Observation) :
    (consideredBits 0 t).length = consideredBelow t.length := by
  rw [length_consideredBits, consideredBelow, List.range_eq_range']

theorem length_frameBitsOf (t : List Observation) :
    (frameBitsOf t).length = min 40 (consideredBelow t.length) := by
  rw [frameBitsOf, List.length_take, length_consideredBits_zero]; rfl

theorem consideredBelow_succ (n : Nat) :
    consideredBelow (n + 1) = consideredBelow n + if considered n then 1 else 0 := by
  simp [consideredBelow, List.range_succ, List.countP_append, List.countP_cons]

@[simp] theorem length_pulseTrace (s : State) : (pulseTrace s).length = s.tlen.toNat := by
  simp [pulseTrace]

@[simp] theorem shiftOf_nil : shiftOf [] = 0#40 := rfl

theorem shiftOf_concat (bits : List Bool) (b : Bool) :
    shiftOf (bits ++ [b]) = shiftIn (shiftOf bits) b := by simp [shiftOf]

/-- One more entry of a trace: its bit joins the frame if it is considered and there is room. -/
theorem frameBitsOf_concat (t : List Observation) (e : Observation) :
    frameBitsOf (t ++ [e]) =
      if considered t.length ∧ consideredBelow t.length < 40 then frameBitsOf t ++ [classify e.durationTicks]
      else frameBitsOf t := by
  have hl := length_consideredBits_zero t
  unfold frameBitsOf
  rw [consideredBits_append, Nat.zero_add, List.take_append, hl, frameBits_eq]
  have he : consideredBits t.length [e] =
      if considered t.length then [classify e.durationTicks] else [] := by simp [consideredBits]
  rw [he]
  by_cases hc : considered t.length = true
  · by_cases hr : consideredBelow t.length < 40
    · rw [if_pos hc, if_pos ⟨hc, hr⟩, List.take_of_length_le (by omega),
        List.take_of_length_le (l := [_]) (by rw [List.length_singleton]; omega)]
    · rw [if_pos hc, if_neg (by tauto), show 40 - consideredBelow t.length = 0 by omega]; simp
  · rw [if_neg hc, if_neg (by tauto)]; simp

/-- A recorded transition is the next entry of the trace, and the others stay. -/
theorem pulseTrace_recordTransition (s : State) (l : Level) (h : s.tlen.toNat < 127) :
    pulseTrace (s.recordTransition l) = pulseTrace s ++ [⟨l, s.cnt⟩] := by
  unfold pulseTrace
  rw [State.recordTransition_tlen, toNat_succ7 h, List.range_succ, List.map_append]
  congr 1
  · refine List.map_congr_left fun i hi => ?_
    rw [State.recordTransition_trace, Memory.read_write_other]
    have := List.mem_range.mp hi
    omega
  · simp

end Sys2Proof.Machine
end

