-- ==== Sys2Proof/Laws/PerInstr.lean ====
section
/-! SUPPORT. Laws/PerInstr.lean: facts stated instruction by instruction. Family EncodeHits: the word an
instruction is encoded as matches the pattern of the instruction's own row. -/

namespace Sys2Proof.Laws.EncodeHits

/-- The encoded word's tested bits are those of the instruction's row (R98). -/
def Statement (i : Instr) : Prop := i.row.hits (encodeWord i) = true

theorem reset (st : AttemptState) (t u k c : Bool) : Statement (.reset st t u k c) := by
  unfold Statement; cases st <;> revert t u k c <;> decide

theorem attemptRead (u k c : Bool) : Statement (.attemptRead u k c) := by
  unfold Statement; revert u k c; decide

theorem idleWait (u k c : Bool) : Statement (.idleWait u k c) := by
  unfold Statement; revert u k c; decide

theorem hsLowWait (t k c : Bool) : Statement (.hsLowWait t k c) := by
  unfold Statement; revert t k c; decide

theorem hsLowTick (t k c : Bool) : Statement (.hsLowTick t k c) := by
  unfold Statement; revert t k c; decide

theorem hsHighWait (t k c : Bool) : Statement (.hsHighWait t k c) := by
  unfold Statement; revert t k c; decide

theorem hsHighTick (t k c : Bool) : Statement (.hsHighTick t k c) := by
  unfold Statement; revert t k c; decide

theorem sampleWait (t u c : Bool) : Statement (.sampleWait t u c) := by
  unfold Statement; revert t u c; decide

theorem sampleSame (t u : Bool) : Statement (.sampleSame t u) := by
  unfold Statement; revert t u; decide

theorem sampleChange (t u : Bool) : Statement (.sampleChange t u) := by
  unfold Statement; revert t u; decide

theorem decodeEntry (t u k : Bool) : Statement (.decodeEntry t u k) := by
  unfold Statement; revert t u k; decide

theorem validate (t u k : Bool) : Statement (.validate t u k) := by
  unfold Statement; revert t u k; decide

theorem successDone (t u k c : Bool) : Statement (.successDone t u k c) := by
  unfold Statement; revert t u k c; decide

theorem failureDone (t u k c : Bool) : Statement (.failureDone t u k c) := by
  unfold Statement; revert t u k c; decide

theorem unusedState (t u k c : Bool) : Statement (.unusedState t u k c) := by
  unfold Statement; revert t u k c; decide

end Sys2Proof.Laws.EncodeHits
end

