-- ==== Sys2Proof/Laws/Run.lean ====
section
/-! SUPPORT. Laws/Run.lean: runs cut into parts, and what feeds them. -/

namespace Sys2Proof.Machine

@[simp] theorem run_zero (s : State) : run 0 s = .next s := rfl

theorem run_succ (n : Nat) (s : State) :
    run (n + 1) s = match step s with
      | .next t => run n t
      | .fault f => .fault f
      | .refused r => .refused r := rfl

/-- The host's run, one step at a time, for any machine. -/
theorem host_run_succ (M : Host.Core) (n : Nat) (x : M.State) :
    (∀ y, M.step x = .next y → M.run (n + 1) x = M.run n y) ∧
    (∀ f, M.step x = .fault f → M.run (n + 1) x = .fault f) ∧
    (∀ r, M.step x = .refused r → M.run (n + 1) x = .refused r) := by
  refine ⟨fun y h => ?_, fun f h => ?_, fun r h => ?_⟩ <;> simp only [Host.Core.run, h]

/-- The host's run of `core` is this run. -/
theorem core_run_eq_run (n : Nat) (s : State) : Host.Core.run Sys2Proof.core n s = run n s := by
  induction n generalizing s with
  | zero => rfl
  | succ n ih =>
    obtain ⟨h1, h2, h3⟩ := host_run_succ Sys2Proof.core n s
    cases hs : step s with
    | next t => rw [run_succ, hs]; exact (h1 t hs).trans (ih t)
    | fault f => rw [run_succ, hs]; exact h2 f hs
    | refused r => rw [run_succ, hs]; exact h3 r hs

theorem run_succ_of_step {n : Nat} {s t : State} (h : step s = .next t) : run (n + 1) s = run n t := by
  rw [run_succ, h]

@[simp] theorem run_one (s : State) : run 1 s = step s := by
  rw [run_succ]; cases step s <;> rfl

/-- A run is a first part and the rest. -/
theorem run_add {m n : Nat} {s t : State} (h : run m s = .next t) : run (m + n) s = run n t := by
  induction m generalizing s with
  | zero => simp only [run_zero, Host.Outcome.next.injEq] at h; subst h; simp
  | succ m ih =>
    rw [Nat.add_right_comm]
    rw [run_succ] at h ⊢
    cases hs : step s with
    | next u => rw [hs] at h; exact ih h
    | fault f => rw [hs] at h; simp at h
    | refused r => rw [hs] at h; simp at h

/-- The last step of a run. -/
theorem run_succ_last {n : Nat} {s t : State} (h : run n s = .next t) : run (n + 1) s = step t := by
  rw [run_add h, run_one]

/-- A run that answers a next state passed through one at every earlier cycle. -/
theorem run_prefix {m n : Nat} {s t : State} (h : run (m + n) s = .next t) :
    ∃ u, run m s = .next u ∧ run n u = .next t := by
  induction m generalizing s with
  | zero => exact ⟨s, rfl, by simpa using h⟩
  | succ m ih =>
    rw [Nat.add_right_comm, run_succ] at h
    cases hs : step s with
    | next v =>
      rw [hs] at h
      obtain ⟨u, hu, hn⟩ := ih h
      exact ⟨u, by rw [run_succ_of_step hs]; exact hu, hn⟩
    | fault f => rw [hs] at h; simp at h
    | refused r => rw [hs] at h; simp at h

@[simp] theorem feeds_nil (s : State) : Feeds s [] := List.nil_prefix

/-- The head of what is fed is the present cycle's input. -/
theorem Feeds.head {s : State} {x : Inputs} {xs : List Inputs} (h : Feeds s (x :: xs)) : s.inputs = x :=
  ((List.cons_prefix_cons.mp h).1).symm

/-- After the clock edge the tail is fed. -/
theorem Feeds.clock {s : State} {x : Inputs} {xs : List Inputs} (h : Feeds s (x :: xs)) :
    Feeds s.clockInputs xs := by
  obtain ⟨-, h⟩ := List.cons_prefix_cons.mp h
  cases hs : s.stimulus with
  | nil => rw [hs] at h; rw [List.prefix_nil.mp h]; simp
  | cons y ys =>
    obtain ⟨h1, h2⟩ := s.clockInputs_of_stimulus hs
    rw [hs] at h
    simpa [Feeds, h1, h2] using h

/-- A shorter stretch is fed too. -/
theorem Feeds.left {s : State} {xs ys : List Inputs} (h : Feeds s (xs ++ ys)) : Feeds s xs :=
  (List.prefix_append xs ys).trans h

/-- Only the inputs and the queue of a state decide what it is fed. -/
theorem Feeds.congr {s t : State} {xs : List Inputs} (h : Feeds s xs) (hi : t.inputs = s.inputs)
    (hs : t.stimulus = s.stimulus) : Feeds t xs := by
  simpa [Feeds, hi, hs] using h

/-- A property kept over a stretch `xs` of what is fed holds at its end, and the rest `ys` is fed from there. -/
theorem run_induct {P : Nat → State → Prop} {s : State} {xs ys : List Inputs} (hf : Feeds s (xs ++ ys))
    (h0 : P 0 s)
    (hstep : ∀ n u x, xs[n]? = some x → u.inputs = x → P n u →
      ∃ v, rowMeaning (cycleRow u) u = .next v ∧ P (n + 1) v.clockInputs) :
    ∃ t, run xs.length s = .next t ∧ P xs.length t ∧ Feeds t ys := by
  induction xs generalizing s P with
  | nil => exact ⟨s, rfl, h0, hf⟩
  | cons x xs ih =>
    obtain ⟨v, hv, hP⟩ := hstep 0 s x (by simp) hf.head h0
    obtain ⟨hvi, hvs, -⟩ := rowMeaning_ports hv
    have hs : step s = .next v.clockInputs := by rw [step_eq, hv]; rfl
    obtain ⟨t, ht, hPt, hft⟩ := ih (P := fun n u => P (n + 1) u) (hf.congr hvi hvs).clock hP
      (fun n u y hy hu hPu => hstep (n + 1) u y (by simpa using hy) hu hPu)
    exact ⟨t, by rw [List.length_cons, run_succ_of_step hs]; exact ht, by simpa using hPt, hft⟩

end Sys2Proof.Machine
end

