-- ==== Sys2Proof/Tests/Slice0.lean ====
section
/-! SUPPORT. Tests/Slice0.lean: smoke tests of WellFormed, words from the spec, one-step vectors of
95_test_vectors.md, and a witness for the hypotheses of each obligation. -/

namespace Sys2Proof.Tests

open Sys2Proof Sys2Proof.Machine

/-! ### WellFormed: one ill-formed term for each check (R97) -/

theorem test_illFormed_reset : (Instr.reset .idle false false false true).WellFormed = false := by decide
theorem test_illFormed_reset_unused : (Instr.reset .unused true true true true).WellFormed = false := by decide
theorem test_wellFormed_reset_sampling : (Instr.reset .sampling false false false true).WellFormed = true := by decide
theorem test_illFormed_attemptRead : (Instr.attemptRead true true true).WellFormed = false := by decide
theorem test_illFormed_idleWait : (Instr.idleWait false false true).WellFormed = false := by decide
theorem test_illFormed_hsLowWait : (Instr.hsLowWait false false true).WellFormed = false := by decide
theorem test_illFormed_hsLowTick : (Instr.hsLowTick false false true).WellFormed = false := by decide
theorem test_illFormed_hsHighWait : (Instr.hsHighWait false false true).WellFormed = false := by decide
theorem test_illFormed_hsHighTick : (Instr.hsHighTick false false true).WellFormed = false := by decide
theorem test_illFormed_successDone : (Instr.successDone false false false true).WellFormed = false := by decide
theorem test_illFormed_failureDone : (Instr.failureDone false false false true).WellFormed = false := by decide
theorem test_illFormed_unusedState : (Instr.unusedState false false false true).WellFormed = false := by decide
theorem test_wellFormed_rest :
    [Instr.sampleWait false false true, .sampleSame true true, .sampleChange true true,
      .decodeEntry true true true, .validate true true true].all Instr.WellFormed = true := by decide

/-! ### Decoding and encoding: words written out from R98 and 95_test_vectors.md 2.1 -/

theorem test_decode_reset : decodeTableWord 8 0b10110000 =
    some (.reset .success false false false false) := by decide
theorem test_decode_attemptRead : decodeTableWord 8 0b00001111 = some (.attemptRead true true true) := by decide
theorem test_decode_idleWait : decodeTableWord 8 0b00000110 = some (.idleWait true true false) := by decide
theorem test_decode_hsLowWait : decodeTableWord 8 0b00101010 = some (.hsLowWait true true false) := by decide
theorem test_decode_hsLowTick : decodeTableWord 8 0b00101100 = some (.hsLowTick true false false) := by decide
theorem test_decode_hsHighWait : decodeTableWord 8 0b01000010 = some (.hsHighWait false true false) := by decide
theorem test_decode_hsHighTick : decodeTableWord 8 0b01001100 = some (.hsHighTick true false false) := by decide
theorem test_decode_sampleWait : decodeTableWord 8 0b01100001 = some (.sampleWait false false true) := by decide
theorem test_decode_sampleSame : decodeTableWord 8 0b01101011 = some (.sampleSame true false) := by decide
theorem test_decode_sampleChange : decodeTableWord 8 0b01100110 = some (.sampleChange false true) := by decide
theorem test_decode_decodeEntry : decodeTableWord 8 0b10000110 = some (.decodeEntry false true true) := by decide
theorem test_decode_validate : decodeTableWord 8 0b10001111 = some (.validate true true true) := by decide
theorem test_decode_successDone : decodeTableWord 8 0b10101111 =
    some (.successDone true true true true) := by decide
theorem test_decode_failureDone : decodeTableWord 8 0b11001000 =
    some (.failureDone true false false false) := by decide
theorem test_decode_unusedState : decodeTableWord 8 0b11101110 =
    some (.unusedState true true true false) := by decide

/-- The words a program runs under configuration T1, in the order of 95_test_vectors.md 2.1. -/
theorem test_encode_t1_words :
    [Instr.idleWait true true false, .attemptRead true true false, .hsLowTick false true false,
      .hsHighTick false true false, .sampleSame false true, .sampleChange false true, .decodeEntry false true true,
      .validate false true true, .successDone false true true false, .failureDone false true true false,
      .reset .idle false true true false].map encodeWord =
    [0x06#8, 0x0E#8, 0x26#8, 0x46#8, 0x67#8, 0x66#8, 0x86#8, 0x87#8, 0xA6#8, 0xC6#8, 0x16#8] := by decide

/-- Only 8 bits are a dispatch word (R101). -/
theorem test_no_word_of_16_bits : decodeTableWord 16 0 = none := by decide

/-- A placed word is the next step's, but for a `cond` of 1 that no cycle forms (R97, log 3). -/
theorem test_withFetchWord : ∀ w : Fin 256,
    dispatchWord (State.reset.withFetchWord 8 w) =
      if (decodeTableWord 8 w).any Instr.WellFormed then BitVec.ofNat 8 w else BitVec.ofNat 8 w &&& 0xFE#8 := by
  decide +kernel

/-! ### One step on small states -/

/-- Inputs of a cycle, at wall clock 1000. -/
def pins (rst start usTick sampleTick : Bool) (lineIn : Level) : Inputs :=
  ⟨rst, start, usTick, sampleTick, lineIn, BitVec.ofNat _ 1000⟩

/-- A cycle with both strobes and nothing else, the line HIGH. -/
def ticks : Inputs := pins false false true true .high

/-- Reset values, in state `st` with inputs `x`. -/
def at_ (st : AttemptState) (x : Inputs) : State := { State.reset with state := st, inputs := x }

/-- A view of the state after one step. -/
def after {α : Type} (s : State) (f : State → α) : Option α :=
  match step s with
  | .next t => some (f t)
  | _ => none

/-- V-R1 -/
theorem test_reset :
    after { at_ .sampling (pins true true true true .low) with
      ref := .low, tlen := 30, cnt := 9, outcome := .success, humInt := 5, timeout := true, trace := [(2, ⟨.low, 7⟩)] }
      (fun t => (t.state, t.tlen, t.cnt, t.ref, t.outcome, t.humInt, t.timeout, t.trace, lineOe t)) =
    some (.idle, 0, 0, .high, .none, 0, false, [(2, ⟨.low, 7⟩)], false) := by rfl

/-- V-H1 -/
theorem test_attemptRead :
    after { at_ .idle (pins false true true true .low) with
      ref := .low, cnt := 255, tlen := 30, sat := true, nbits := 12, shift := 0xABC, outcome := .success, humInt := 0x32 }
      (fun t => (t.state, t.ref, t.cnt, t.tlen, t.sat, t.nbits, t.shift, t.outcome, t.humInt)) =
    some (.hsLow, .high, 0, 0, false, 0, 0, .success, 0x32) := by rfl

/-- V-H2 -/
theorem test_idleWait :
    after { at_ .idle ticks with tcnt := 5 } (fun t => (t.state, t.tcnt, busy t)) = some (.idle, 5, false) := by decide

/-- V-H3 -/
theorem test_hsLowWait :
    after { at_ .hsLow (pins false true false true .low) with tcnt := 7 } (fun t => (t.state, t.tcnt)) =
    some (.hsLow, 7) := by decide

/-- V-H5 -/
theorem test_hsLowTick_counts :
    after { at_ .hsLow ticks with tcnt := 19998 } (fun t => (t.state, t.tcnt)) = some (.hsLow, 19999) := by decide

/-- V-H6 -/
theorem test_hsLowTick_ends :
    after { at_ .hsLow ticks with tcnt := 19999 } (fun t => (t.state, t.tcnt, lineOe t, lineOut t)) =
    some (.hsHigh, 0, true, .high) := by decide

/-- V-H7 -/
theorem test_hsHighWait :
    after { at_ .hsHigh (pins false false false true .low) with tcnt := 3 } (fun t => (t.state, t.tcnt)) =
    some (.hsHigh, 3) := by decide

/-- V-H8 -/
theorem test_hsHighTick_counts :
    after { at_ .hsHigh ticks with tcnt := 38 } (fun t => (t.state, t.tcnt)) = some (.hsHigh, 39) := by decide

/-- V-H9 -/
theorem test_hsHighTick_ends :
    after { at_ .hsHigh ticks with tcnt := 39 } (fun t => (t.state, t.tcnt, t.ref, t.cnt, lineOe t)) =
    some (.sampling, 0, .high, 0, false) := by decide

/-- V-S1 -/
theorem test_sampleWait :
    after { at_ .sampling (pins false false true false .low) with cnt := 12, tlen := 3 }
      (fun t => (t.state, t.cnt, t.ref, t.tlen, t.trace)) = some (.sampling, 12, .high, 3, []) := by rfl

/-- V-S3 -/
theorem test_sampleSame_counts :
    after { at_ .sampling (pins false false true true .low) with cnt := 253, ref := .low, tlen := 1 }
      (fun t => (t.state, t.cnt, t.sat)) = some (.sampling, 254, false) := by decide

/-- V-S4 -/
theorem test_sampleSame_saturates :
    after { at_ .sampling ticks with cnt := 254, tlen := 84 } (fun t => (t.state, t.cnt, t.sat, t.tlen, t.trace)) =
    some (.decoding, 255, true, 84, []) := by rfl

/-- V-S6 -/
theorem test_sampleChange_records :
    after { at_ .sampling (pins false false true true .low) with cnt := 35, tlen := 4 }
      (fun t => (t.state, t.tlen, t.ref, t.cnt, observationBits (Memory.read t.trace 4))) =
    some (.sampling, 5, .low, 0, 0x023#9) := by decide

/-- V-S9b -/
theorem test_sampleChange_cap :
    after { at_ .sampling ticks with cnt := 7, ref := .low, tlen := 84 }
      (fun t => (t.state, t.tlen, t.sat, observationBits (Memory.read t.trace 84))) =
    some (.decoding, 85, false, 0x107#9) := by decide

/-- The trace buffer of V-D1 to V-D8. -/
def bufferD : Memory :=
  [(0, ⟨.low, 20⟩), (3, ⟨.high, 25⟩), (4, ⟨.low, 35⟩), (5, ⟨.high, 25⟩), (6, ⟨.low, 16⟩), (8, ⟨.low, 17⟩),
   (82, ⟨.low, 254⟩), (84, ⟨.low, 254⟩)]

/-- A DECODING state over `bufferD`. -/
def decodingAt (di tlen : BitVec 7) (nbits : BitVec 6) (shift : BitVec 40) : State :=
  { at_ .decoding ticks with trace := bufferD, di := di, tlen := tlen, nbits := nbits, shift := shift }

/-- What the decoder vectors look at. -/
def viewD (t : State) : AttemptState × BitVec 7 × BitVec 6 × BitVec 40 := (t.state, t.di, t.nbits, t.shift)

/-- V-D6: 17 gives 1, and enters at bit 0. -/
theorem test_decodeEntry_shifts : after (decodingAt 8 84 2 2) viewD = some (.decoding, 9, 3, 5) := by decide

/-- V-D8: a 41st considered entry is ignored. -/
theorem test_decodeEntry_full :
    after (decodingAt 84 85 40 0x320018054F) viewD = some (.decoding, 85, 40, 0x320018054F) := by decide

/-- What the validation vectors look at. -/
def viewV (t : State) : AttemptState × DecodeOutcome × Bool × Byte × Byte × Byte × Byte :=
  (t.state, t.outcome, t.timeout, t.humInt, t.humFrac, t.tempInt, t.tempFrac)

/-- V-D9, with its timestamp. -/
theorem test_validate_success :
    after { decodingAt 84 84 40 0x320018054F with sat := true } (fun t => (viewV t, t.capturedAt)) =
    some ((.success, .success, true, 0x32, 0x00, 0x18, 0x05), BitVec.ofNat _ 1000) := by rfl

/-- V-D10: an earlier Reading is cleared. V-D11, here with partial bytes that pass the checksum (R206). -/
theorem test_validate_failure :
    after { decodingAt 84 84 40 0x3200180550 with sat := true, outcome := .success, humInt := 0x32 } viewV =
      some (.failure, .checksumMismatch, true, 0, 0, 0, 0) ∧
    after { decodingAt 82 82 39 0x320018054F with sat := true } viewV =
      some (.failure, .incompleteFrame, true, 0, 0, 0, 0) := ⟨by rfl, by rfl⟩

/-- V-D15, V-D16, V-D17: `start` is not read. -/
theorem test_done_states :
    [AttemptState.success, .failure, .unused].map (fun st =>
      after (at_ st (pins false true true true .high)) (fun t => (t.state, done t, busy t))) =
    [some (.idle, false, false), some (.idle, false, false), some (.idle, false, false)] := by decide

/-- An index of TRACE that does not exist (R70, log 5). -/
theorem test_absent_index :
    (∀ t, step { at_ .sampling (pins false false true true .low) with tlen := 85 } ≠ .next t) ∧
    step (decodingAt 85 86 0 0) = .fault (.traceIndexOutOfRange 85) := by
  refine ⟨fun t h => ?_, by rfl⟩
  have h' : step { at_ .sampling (pins false false true true .low) with tlen := 85 } =
    .fault (.traceIndexOutOfRange 85) := by rfl
  rw [h'] at h
  cases h

/-! ### The decoder's functions -/

/-- 95_test_vectors.md 2.4 -/
theorem test_considered :
    [0, 1, 2, 3, 4, 5, 6, 7, 82, 83, 84].map considered =
    [false, false, false, false, true, false, true, false, true, false, true] := by decide

/-- 95_test_vectors.md 2.4 -/
theorem test_classify :
    [0#8, 1#8, 15#8, 16#8, 17#8, 18#8, 35#8, 254#8].map classify =
    [false, false, false, false, true, true, true, true] := by decide

/-- 95_test_vectors.md 2.4 -/
theorem test_frameByte :
    [0, 1, 2, 3, 4].map (frameByte · 0x320018054F#40) = [0x32#8, 0x00#8, 0x18#8, 0x05#8, 0x4F#8] := by decide

/-- 95_test_vectors.md 2.4 -/
theorem test_checksumOk :
    [0x320018054F#40, 0x3200180550#40, 0x0000000000#40, 0xFFFFFFFFFC#40, 0xFFFFFFFFFF#40, 0x8080000000#40,
      0x8080000080#40].map checksumOk = [true, false, true, true, false, true, false] := by decide

/-- The durations a frame's bytes give after a preamble, as in E1. -/
def frameDurations (short long : Nat) (bytes : List Byte) : List Nat :=
  [20, 40, 40, 25] ++ (bytes.map fun v =>
    ((List.range 8).map fun j => [if v.getLsbD (7 - j) then long else short, 25]).flatten).flatten

/-- T_E1. -/
def traceE1 : List Observation := traceOfDurations 0 (frameDurations 8 35 [0x32, 0x00, 0x18, 0x05, 0x4F])

/-- E1 and E2 -/
theorem test_decodeTrace_E1_E2 :
    decodeTrace traceE1 = .success 0x32 0x00 0x18 0x05 ∧
    decodeTrace (traceOfDurations 0 (frameDurations 8 35 [0x32, 0x00, 0x18, 0x05, 0x50])) = .checksumMismatch := by
  decide +kernel

/-- E3, E6 and V-F9: 64 and 82 entries are incomplete, 83 are enough. -/
theorem test_decodeTrace_lengths :
    decodeTrace (traceE1.take 64) = .incompleteFrame ∧ decodeTrace (traceE1.take 82) = .incompleteFrame ∧
    decodeTrace (traceE1.take 83) = .success 0x32 0x00 0x18 0x05 := by decide +kernel

/-- E7 -/
theorem test_decodeTrace_threshold :
    decodeTrace (traceOfDurations 0 (frameDurations 16 17 [0xFF, 0x00, 0xAA, 0x55, 0xFE])) =
      .success 0xFF 0x00 0xAA 0x55 := by decide +kernel

/-- R104: the expansion of SEND_BIT 0 and SEND_BIT 1. -/
theorem test_sendBit :
    [sendBit false, sendBit true] = [[.line .high 9, .line .low 26], [.line .high 36, .line .low 26]] := by decide

/-- R103: a START, a NOP and a LINE run give the inputs of their cycles. -/
theorem test_programInputs :
    let p : Program := ⟨[.wall 7, .start, .nop 2], [.line .low 2, .forever .high], none⟩
    let r := programInputs TimeBase.t1 0 ticks p (at_ .sampling ticks)
    (r.1.rst, r.1.start, r.1.usTick, r.1.sampleTick, r.1.lineIn) = (false, true, true, true, .low) ∧
      r.2.control = [.nop 2] ∧ r.2.line = [.line .low 1, .forever .high] := by decide

/-- R103: a SAMPLING cycle with a strobe is a sampling tick, under RST too; a cycle without a strobe is none. -/
theorem test_programInputs_tick :
    let p : Program := ⟨[.rst], [.line .low 2], none⟩
    (programInputs TimeBase.t1 0 ticks p (at_ .sampling ticks)).2.line = [.line .low 1] ∧
    (programInputs (TimeBase.every 1 2) 1 ticks p (at_ .sampling ticks)).2.line = [.line .low 2] ∧
    (programInputs TimeBase.t1 0 ticks p (at_ .decoding ticks)).2.line = [.line .low 2] := by decide

/-- R103: `WALL v` holds from its cycle on, past the end of the stream; before any `WALL` the clock is the free one. -/
theorem test_programInputs_wall (v : Timestamp) :
    let r := programInputs TimeBase.t1 0 ticks ⟨[.wall v, .nop 1], [], none⟩ (at_ .idle ticks)
    r.1.wallclock = v ∧ (programInputs TimeBase.t1 1 ticks r.2 (at_ .idle ticks)).1.wallclock = v ∧
    (programInputs TimeBase.t1 0 ticks ⟨[.nop 1], [], none⟩ (at_ .idle ticks)).1.wallclock = ticks.wallclock :=
  ⟨rfl, rfl, rfl⟩

/-- R105: `sat`, `cap`, and no word while sampling has not ended. -/
theorem test_traceEnd :
    [{ at_ .decoding ticks with sat := true, tlen := 84 }, { at_ .decoding ticks with tlen := 85 },
      { at_ .sampling ticks with tlen := 84 }].map traceEnd = [some .sat, some .cap, none] := by decide

/-! ### Witnesses: a state and operands that meet the hypotheses of each statement -/

theorem test_witness_EncodeInvertsDecode :
    decode [0x0F#8, 0xAA#8] = .ok (.attemptRead true true true, [0xAA#8]) := by decide

theorem test_witness_OpcodeTableIsCompleteAndUnambiguous :
    rowOf 0x20#8 = rowOf 0x2B#8 ∧ decode [0x20#8] = .ok (.hsLowWait false false false, []) ∧
    decode [0x2B#8] = .ok (.hsLowWait true true true, []) := by decide

/-- Every clause of the dispatch statement, from 95_test_vectors.md 2.1. -/
theorem test_witness_DispatchSelectsTheRowOfTheOpcodeMap :
    [0x16#8, 0x0E#8, 0x06#8, 0x26#8, 0x22#8, 0x46#8, 0x42#8, 0x64#8, 0x67#8, 0x66#8, 0x86#8, 0x87#8, 0xA6#8, 0xC6#8,
      0xE6#8].map (fun w => rowOf (dispatchWord (State.reset.selectWord w))) =
    [.reset, .attemptRead, .idleWait, .hsLowTick, .hsLowWait, .hsHighTick, .hsHighWait, .sampleWait, .sampleSame,
      .sampleChange, .decodeEntry, .validate, .successDone, .failureDone, .unusedState].map some := by decide

/-- And each of them steps to a next state. -/
theorem test_witness_steps :
    [0x16#8, 0x0E#8, 0x06#8, 0x26#8, 0x22#8, 0x46#8, 0x42#8, 0x64#8, 0x67#8, 0x66#8, 0x86#8, 0x87#8, 0xA6#8, 0xC6#8,
      0xE6#8].map (fun w => after (State.reset.selectWord w) (·.state)) =
    [.idle, .hsLow, .idle, .hsLow, .hsLow, .hsHigh, .hsHigh, .sampling, .sampling, .sampling, .decoding, .failure,
      .idle, .idle, .idle].map some := by decide

theorem test_witness_StepRunsTheDecodedInstruction_next :
    decode (fetchBytes (at_ .idle ticks)) = .ok (.idleWait true true false, []) ∧
    exec (.idleWait true true false) (at_ .idle ticks) = .next (at_ .idle ticks) := ⟨by decide, rfl⟩

theorem test_witness_StepRunsTheDecodedInstruction_fault :
    decode (fetchBytes (decodingAt 85 86 0 0)) = .ok (.decodeEntry false true true, []) ∧
    exec (.decodeEntry false true true) (decodingAt 85 86 0 0) = .fault (.traceIndexOutOfRange 85) :=
  ⟨by decide, rfl⟩

/-- TCNT at 19999 (both clauses that name it), at 20000 and at 32766. -/
theorem test_witness_HsLowTickCountsOneMicrosecond :
    (19999#15).toNat = 19999 ∧ ((20000#15).toNat ≠ 19999 ∧ (32766#15).toNat ≠ 19999 ∧ (32766#15).toNat < 32767) ∧
    ∃ u, exec (.hsLowTick false true false) { at_ .hsLow ticks with tcnt := 19999 } = .next u :=
  ⟨by decide, by decide, _, rfl⟩

theorem test_witness_HsHighTickCountsAndReleasesTheLine :
    (39#15).toNat = 39 ∧ ((40#15).toNat ≠ 39 ∧ (32766#15).toNat ≠ 39 ∧ (32766#15).toNat < 32767) ∧
    ∃ u, exec (.hsHighTick false true false) { at_ .hsHigh ticks with tcnt := 39 } = .next u :=
  ⟨by decide, by decide, _, rfl⟩

theorem test_witness_SampleSameCountsAndSaturates :
    (254#8).toNat = 254 ∧ (253#8).toNat < 254 := by decide

theorem test_witness_CounterOverflowLeavesAFreeValue :
    (32767#15).toNat = 32767 ∧ (255#8).toNat = 255 := by decide

theorem test_witness_SampleChangeRecordsATransition :
    (84#7).toNat < 85 ∧ (84#7).toNat + 1 = 85 ∧ (83#7).toNat < 85 ∧ (83#7).toNat + 1 ≠ 85 := by decide

theorem test_witness_OnlyAnAbsentTraceIndexStops :
    85 ≤ { at_ .sampling ticks with tlen := 85 }.tlen.toNat ∧ 85 ≤ (decodingAt 85 86 0 0).di.toNat := by decide

/-- DI 84 shifts with 39 bits; DI 84 with 40 bits, DI 3 and DI 83 do not. -/
theorem test_witness_DecodeEntryShiftsInConsideredBits :
    (let s := decodingAt 84 85 39 0
     s.di.toNat < 85 ∧ 4 ≤ s.di.toNat ∧ s.di.toNat % 2 = 0 ∧ s.nbits.toNat < 40) ∧
    (let s := decodingAt 84 85 40 0
     s.di.toNat < 85 ∧ 40 ≤ s.nbits.toNat) ∧
    (decodingAt 3 85 0 0).di.toNat < 4 ∧ (decodingAt 83 85 39 0).di.toNat % 2 = 1 := by decide

/-- 39 bits; 40 bits with the right sum and with a wrong one. -/
theorem test_witness_ValidateWritesTheOutcome :
    (39#6).toNat < 40 ∧ 40 ≤ (40#6).toNat ∧ (0x4F#8 = 0x32#8 + 0x00#8 + 0x18#8 + 0x05#8) ∧
    (0x50#8 ≠ 0x32#8 + 0x00#8 + 0x18#8 + 0x05#8) ∧
    (0x320018054F#40).extractLsb' 0 8 = 0x4F#8 ∧ (0x3200180550#40).extractLsb' 0 8 = 0x50#8 := by decide

/-- A validation that changes the results, and a state in which none happens. -/
theorem test_witness_ResultsChangeOnlyInValidationOrReset :
    after { decodingAt 82 82 39 0 with outcome := .success, humInt := 0x32 } (fun t => (t.outcome, t.humInt)) =
      some (.incompleteFrame, 0) ∧
    ticks.rst = false ∧ ¬ ((at_ .sampling ticks).state = .decoding) := by decide

/-- In SAMPLING with no strobe, `start`, `us_tick` and `line_in` may be anything. -/
theorem test_witness_InputsMatterOnlyWhereARuleNamesThem :
    let s := at_ .sampling (pins false false false false .high)
    let x := pins false true true false .low
    x.rst = s.inputs.rst ∧ s.state = .sampling ∧ x.sampleTick = s.inputs.sampleTick ∧ s.inputs.sampleTick = false := by
  decide

/-- A sampling step at CNT 254 and TLEN 84, a short frame, and a validation with either SAT. -/
theorem test_witness_SimultaneousConditionsAreResolved :
    after { at_ .sampling ticks with cnt := 254, tlen := 84 } (·.tlen) = some 84 ∧ (39#6).toNat < 40 ∧
    after { decodingAt 84 84 40 0x320018054F with sat := true } (fun t => (t.timeout, t.outcome)) =
      some (true, .success) ∧
    after { decodingAt 84 84 40 0x320018054F with sat := false } (fun t => (t.timeout, t.outcome)) =
      some (false, .success) := by decide

theorem test_witness_ByteAssemblerKeepsReceivedOrder :
    (List.replicate 40 true).length = 40 ∧ 39 < 40 ∧ 8 * 4 + 7 < 40 := by decide

theorem test_witness_ChecksumAcceptsAndRejects :
    39 < 40 ∧ checksumOk 0x320018054F#40 = true ∧ checksumOk (0x320018054F#40 ^^^ (1#40 <<< 39)) = false := by decide

/-- Two traces that differ in the preamble, in odd entries and in a level only; a short one; a whole frame. -/
theorem test_witness_DecodeFunctionLaws :
    (let t : List Observation := [⟨.low, 1⟩, ⟨.high, 2⟩, ⟨.low, 3⟩, ⟨.high, 4⟩, ⟨.low, 30⟩, ⟨.high, 6⟩]
     let u : List Observation := [⟨.low, 9⟩, ⟨.high, 9⟩, ⟨.low, 9⟩, ⟨.high, 9⟩, ⟨.high, 30⟩, ⟨.low, 9⟩]
     t.length = u.length ∧ ∀ i (h : i < t.length) (h' : i < u.length), 4 ≤ i → i % 2 = 0 →
       (t[i]'h).durationTicks = (u[i]'h').durationTicks) ∧
    consideredBelow 82 < 40 := by
  refine ⟨⟨rfl, fun i h h' h4 h2 => ?_⟩, by decide +kernel⟩
  obtain rfl : i = 4 := by simp at h; omega
  rfl

theorem test_witness_DecodeFunctionLaws_frame :
    frameBitsOf traceE1 = (List.range 40).map
      (fun j => (0x32#8 ++ 0x00#8 ++ 0x18#8 ++ 0x05#8 ++ 0x4F#8).getLsbD (39 - j)) := by decide +kernel

/-- A state in the last DECODING cycle of an attempt with an empty trace. -/
def emptyTrace : State := { at_ .decoding ticks with cnt := 255, sat := true }

/-- The first SAMPLING cycle of an attempt. -/
def firstSample (x : Inputs) (xs : List Inputs) : State := { at_ .sampling x with stimulus := xs }

theorem emptyTrace_inv : Machine.Inv emptyTrace := by
  constructor
  · constructor <;> decide
  · exact Memory.wf_nil
  · intro i hi; exact absurd hi (Nat.not_lt_zero i)
  · intro i hi; exact absurd hi (Nat.not_lt_zero i)
  · intro i hi; exact absurd hi (Nat.not_lt_zero i)
  · decide
  · decide
  · decide
  · decide
  · intro _; exact ⟨rfl, rfl⟩
  · decide
  · decide
  · intro _; exact ⟨rfl, rfl, rfl, rfl, rfl⟩

theorem firstSample_inv (x : Inputs) (xs : List Inputs) : Machine.Inv (firstSample x xs) := by
  constructor
  · constructor <;> simp [firstSample, at_, State.reset, traceCap, frameBits, satMax]
  · exact Memory.wf_nil
  · intro i hi; exact absurd hi (Nat.not_lt_zero i)
  · intro i hi; exact absurd hi (Nat.not_lt_zero i)
  · intro i hi; exact absurd hi (Nat.not_lt_zero i)
  · intro h; simp [firstSample, at_] at h
  · intro _; exact ⟨rfl, rfl, rfl, rfl⟩
  · intro _; exact ⟨Nat.zero_lt_succ 84, rfl⟩
  · intro h; simp [firstSample, at_] at h
  · intro h; simp [firstSample, at_] at h
  · intro h; simp [firstSample, at_] at h
  · intro h; simp [firstSample, at_] at h
  · intro _; exact ⟨rfl, rfl, rfl, rfl, rfl⟩

/-- A done cycle with no entry recorded. -/
def doneState (st : AttemptState) (o : DecodeOutcome) : State := { at_ st ticks with outcome := o }

theorem doneState_inv {st : AttemptState} {o : DecodeOutcome}
    (h : (st = .success ∧ o = .success) ∨ (st = .failure ∧ o = .incompleteFrame)) : Machine.Inv (doneState st o) := by
  rcases h with ⟨rfl, rfl⟩ | ⟨rfl, rfl⟩ <;> constructor
  all_goals first
    | (constructor <;> decide)
    | exact Memory.wf_nil
    | (intro i hi; exact absurd hi (Nat.not_lt_zero i))
    | decide

/-- The done states and the reserved one; the first two within the invariant. -/
theorem test_witness_DoneAndReservedStatesReturnToIdle :
    Machine.Inv (doneState .success .success) ∧ done (doneState .success .success) = true ∧
    Machine.Inv (doneState .failure .incompleteFrame) ∧ done (doneState .failure .incompleteFrame) = true ∧
    busy (at_ .unused ticks) = true :=
  ⟨doneState_inv (.inl ⟨rfl, rfl⟩), rfl, doneState_inv (.inr ⟨rfl, rfl⟩), rfl, rfl⟩

theorem test_witness_BitCountFollowsFromTraceLength :
    Machine.Inv emptyTrace ∧ emptyTrace.state = .decoding ∧ emptyTrace.di = emptyTrace.tlen ∧
    (traceE1.take 82).length ≤ 82 ∧ (traceE1.take 83).length = 83 ∧
    (traceE1 ++ [(⟨.low, 0⟩ : Observation)]).length = 85 :=
  ⟨emptyTrace_inv, rfl, rfl, by decide +kernel, by decide +kernel, by decide +kernel⟩

theorem test_witness_ResetRowEstablishesTheInvariant :
    Memory.wf (decodingAt 90 85 63 0).trace ∧
    ((decodingAt 90 85 63 0).withInputs (pins true false false false .low)).inputs.rst = true := by decide

theorem test_witness_EveryStepKeepsTheInvariant :
    Machine.Inv (firstSample ticks [ticks]) ∧ ∃ t, step (firstSample ticks [ticks]) = .next t :=
  ⟨firstSample_inv _ _, _, rfl⟩

theorem test_witness_NoConditionStopsTheCore : Machine.Inv emptyTrace := emptyTrace_inv

theorem test_witness_ReachableValuesHoldFromReset :
    Memory.wf bufferD ∧ ResetValues { at_ .idle ticks with trace := bufferD } := ⟨by decide, rfl⟩

/-- A state fed with a given stretch of inputs. -/
def fed (st : AttemptState) (x : Inputs) (xs : List Inputs) : State := { at_ st x with stimulus := xs }

theorem fed_feeds (st : AttemptState) (x : Inputs) (xs : List Inputs) : Feeds (fed st x xs) (x :: xs) :=
  List.prefix_refl _

theorem noReset_replicate (n : Nat) {x : Inputs} (h : x.rst = false) : NoReset (List.replicate n x) := by
  intro y hy
  rw [List.eq_of_mem_replicate hy, h]

theorem usStrobes_ticks (n : Nat) : usStrobes (List.replicate n ticks) = n := by
  rw [usStrobes, List.countP_eq_length.mpr (fun x hx => by rw [List.eq_of_mem_replicate hx]; rfl),
    List.length_replicate]

theorem sampleStrobes_ticks (n : Nat) : sampleStrobes (List.replicate n ticks) = n := by
  rw [sampleStrobes, List.countP_eq_length.mpr (fun x hx => by rw [List.eq_of_mem_replicate hx]; rfl),
    List.length_replicate]

/-- What a stretch of `n` cycles under T1, and one more, is. -/
theorem ticks_stretch (st : AttemptState) (n : Nat) :
    let s := fed st ticks (List.replicate n ticks)
    Feeds s (List.replicate n ticks) ∧ Feeds s (List.replicate n ticks ++ [ticks]) ∧
    NoReset (List.replicate n ticks) ∧ NoReset (List.replicate n ticks ++ [ticks]) := by
  have h : List.replicate n ticks ++ [ticks] = ticks :: List.replicate n ticks := by
    rw [← List.replicate_succ', List.replicate_succ]
  have hf : Feeds (fed st ticks (List.replicate n ticks)) (List.replicate n ticks ++ [ticks]) := by
    rw [h]; exact fed_feeds st ticks _
  refine ⟨(List.prefix_append _ _).trans hf, hf, noReset_replicate n rfl, ?_⟩
  rw [← List.replicate_succ']
  exact noReset_replicate _ rfl

/-- 19999 strobes in HS_LOW, and then the 20000th. -/
theorem test_witness_HandshakeLastsItsStrobes_low :
    let xs := List.replicate 19999 ticks
    let s := fed .hsLow ticks xs
    s.state = .hsLow ∧ s.tcnt = 0 ∧ (Feeds s xs ∧ Feeds s (xs ++ [ticks]) ∧ NoReset xs ∧ NoReset (xs ++ [ticks])) ∧
    usStrobes xs = 19999 ∧ ticks.usTick = true :=
  ⟨rfl, rfl, ticks_stretch _ _, usStrobes_ticks _, rfl⟩

/-- 39 strobes in HS_HIGH, and then the 40th. -/
theorem test_witness_HandshakeLastsItsStrobes_high :
    let xs := List.replicate 39 ticks
    let s := fed .hsHigh ticks xs
    s.state = .hsHigh ∧ s.tcnt = 0 ∧ (Feeds s xs ∧ Feeds s (xs ++ [ticks]) ∧ NoReset xs ∧ NoReset (xs ++ [ticks])) ∧
    usStrobes xs = 39 ∧ ticks.usTick = true :=
  ⟨rfl, rfl, ticks_stretch _ _, usStrobes_ticks _, rfl⟩

/-- A cycle of SAMPLING without a strobe. -/
def gap : Inputs := pins false false false false .low

/-- The first SAMPLING cycles: one without a strobe, `n` samples at HIGH, then a sample at `l`. -/
def measuring (n : Nat) (l : Level) : State :=
  fed .sampling gap (List.replicate n ticks ++ [pins false false false true l])

/-- The hypotheses of MeasurementRecordsItsSamples, for `n` samples at HIGH and then one at `l`. -/
def MeasuringHyps (n : Nat) (l : Level) : Prop :=
  let xs := gap :: List.replicate n ticks
  let x := pins false false false true l
  let s := measuring n l
  s.state = .sampling ∧ s.cnt = 0 ∧ s.tlen.toNat < 85 ∧ Feeds s (xs ++ [x]) ∧ NoReset (xs ++ [x]) ∧
  samples xs = List.replicate n s.ref ∧ x.sampleTick = true ∧ n ≤ 254

theorem measuringHyps (n : Nat) (l : Level) (h : n ≤ 254) : MeasuringHyps n l := by
  refine ⟨rfl, rfl, Nat.zero_lt_succ 84, fed_feeds _ _ _, ?_, ?_, rfl, h⟩
  · intro y hy
    simp only [List.cons_append, List.mem_cons, List.mem_append, List.mem_replicate, List.not_mem_nil, or_false] at hy
    rcases hy with rfl | ⟨-, rfl⟩ | rfl <;> rfl
  · simp [samples, gap, ticks, pins, measuring, fed, at_, State.reset]

/-- 254 samples and then a change: the longest recorded duration. No sample before the change: the shortest. -/
theorem test_witness_MeasurementRecordsItsSamples_change :
    MeasuringHyps 254 .low ∧ MeasuringHyps 0 .low ∧ Level.low ≠ (measuring 254 .low).ref :=
  ⟨measuringHyps _ _ (by decide), measuringHyps _ _ (by decide), by decide⟩

/-- 253 samples, or 254, and then one more at the same level. -/
theorem test_witness_MeasurementRecordsItsSamples_same :
    MeasuringHyps 253 .high ∧ MeasuringHyps 254 .high ∧ Level.high = (measuring 254 .high).ref :=
  ⟨measuringHyps _ _ (by decide), measuringHyps _ _ (by decide), rfl⟩

theorem test_witness_SamplingEndsWhateverTheLineDoes :
    let xs := List.replicate 21675 ticks
    let s := firstSample ticks (List.replicate 21674 ticks)
    Machine.Inv s ∧ s.state = .sampling ∧ Feeds s xs ∧ NoReset xs ∧ 21675 ≤ sampleStrobes xs :=
  ⟨firstSample_inv _ _, rfl, List.prefix_refl (ticks :: List.replicate 21674 ticks), noReset_replicate _ rfl,
    Nat.le_of_eq (sampleStrobes_ticks _).symm⟩

/-- DECODING over 85 entries. -/
def decoding85 : State := { fed .decoding ticks (List.replicate 86 ticks) with tlen := 85, trace := bufferD }

theorem test_witness_DecodingTakesTlenPlusOneCycles :
    decoding85.state = .decoding ∧ decoding85.di = 0 ∧ decoding85.tlen.toNat ≤ 85 ∧
    Feeds decoding85 (List.replicate 87 ticks) ∧ NoReset (List.replicate 87 ticks) ∧
    (List.replicate 87 ticks).length = decoding85.tlen.toNat + 2 :=
  ⟨rfl, rfl, by decide, List.prefix_refl (ticks :: List.replicate 86 ticks), noReset_replicate 87 rfl, by
    rw [List.length_replicate]; rfl⟩

theorem test_witness_HardwareComputesDecode :
    decoding85.nbits = 0 ∧ decoding85.shift = 0 ∧ Feeds decoding85 (List.replicate 86 ticks) ∧
    NoReset (List.replicate 86 ticks) ∧ (List.replicate 86 ticks).length = decoding85.tlen.toNat + 1 :=
  ⟨rfl, rfl, ⟨[ticks], by rw [← List.replicate_succ']; rfl⟩, noReset_replicate 86 rfl, by
    rw [List.length_replicate]; rfl⟩

theorem test_witness_StartIsReadOnlyInIdle :
    let s := fed .failure ticks [pins false true true true .high]
    (at_ .idle (pins false true true true .high)).inputs.start = true ∧ s.state ≠ .idle ∧ done s = true ∧ Feeds s [ticks, pins false true true true .high] ∧
    NoReset [ticks, pins false true true true .high] := by
  refine ⟨rfl, by decide, rfl, List.prefix_refl _, ?_⟩
  intro y hy
  simp only [List.mem_cons, List.not_mem_nil, or_false] at hy
  rcases hy with rfl | rfl <;> rfl

theorem test_witness_EveryAttemptEndsOnTime :
    let go := pins false true true true .high
    let xs := go :: List.replicate 41801 ticks
    let s := fed .idle go (List.replicate 41801 ticks)
    s.state = .idle ∧ s.inputs.start = true ∧ Feeds s xs ∧ NoReset xs ∧ BothStrobes xs ∧ xs.length = 41802 := by
  refine ⟨rfl, rfl, List.prefix_refl _, ?_, ?_, ?_⟩
  · intro y hy
    rcases List.mem_cons.mp hy with rfl | hy
    · rfl
    · exact noReset_replicate 41801 rfl y hy
  · intro y hy
    rcases List.mem_cons.mp hy with rfl | hy
    · exact ⟨rfl, rfl⟩
    · rw [List.eq_of_mem_replicate hy]; exact ⟨rfl, rfl⟩
  · rw [List.length_cons, List.length_replicate]

theorem test_witness_EveryAttemptEndsGivenItsStrobes :
    let go := pins false true false false .high
    let lo := List.replicate 20000 ticks
    let hi := List.replicate 40 ticks
    let sm := List.replicate 21675 ticks
    let dec := List.replicate 86 gap
    let s := fed .idle go (lo ++ hi ++ sm ++ dec)
    s.state = .idle ∧ go.start = true ∧ Feeds s (go :: (lo ++ hi ++ sm ++ dec)) ∧
    NoReset (go :: (lo ++ hi ++ sm ++ dec)) ∧ 20000 ≤ usStrobes lo ∧ 40 ≤ usStrobes hi ∧
    21675 ≤ sampleStrobes sm ∧ 86 ≤ dec.length := by
  refine ⟨rfl, rfl, List.prefix_refl _, ?_, (usStrobes_ticks _).ge, (usStrobes_ticks _).ge, (sampleStrobes_ticks _).ge,
    (List.length_replicate (n := 86)).ge⟩
  intro y hy
  simp only [List.mem_cons, List.mem_append, List.mem_replicate] at hy
  rcases hy with rfl | (((⟨-, rfl⟩ | ⟨-, rfl⟩) | ⟨-, rfl⟩) | ⟨-, rfl⟩) <;> rfl

/-- Two idle machines with different pasts. -/
theorem test_witness_AttemptsAreIndependentOfThePast :
    let go := pins false true true true .high
    let s := at_ .idle go
    let t := { s with trace := bufferD, tlen := 85, cnt := 255, sat := true, outcome := .success, humInt := 1 }
    s.state = .idle ∧ t.state = .idle ∧ s.inputs = t.inputs ∧ s.stimulus = t.stimulus ∧ s.draws = t.draws ∧
    s.inputs.start = true ∧ s.inputs.rst = false := ⟨rfl, rfl, rfl, rfl, rfl, rfl, rfl⟩

end Sys2Proof.Tests
end

/-! SUPPORT. Proofs of the family 10_state: the output ports, the values after reset, which inputs a cycle
reads, and the reachable values of R56. -/

namespace Sys2Proof.Machine

/-! ### The output ports, port by port (R32, R33) -/

theorem lineOe_iff (s : State) : lineOe s = true ↔ s.state = .hsLow ∨ s.state = .hsHigh := by
  simp [lineOe]

theorem lineOut_eq_low_iff (s : State) : lineOut s = .low ↔ s.state = .hsLow := by
  simp [lineOut]

theorem busy_iff (s : State) : busy s = true ↔ s.state ≠ .idle := by
  simp [busy]

theorem done_iff (s : State) : done s = true ↔ s.state = .success ∨ s.state = .failure := by
  simp [done]

/-- The cycle after a done cycle is an IDLE one: RESET, SUCCESS_DONE and FAILURE_DONE all lead there. -/
theorem step_of_done {s t : State} (hd : done s = true) (h : step s = .next t) : t.state = .idle := by
  obtain ⟨u, hu, rfl⟩ := step_inv h
  rw [State.clockInputs_state]
  cases hr : s.inputs.rst with
  | true =>
    rw [cycleRow_eq_of_condition (r := .reset) hr] at hu
    cases hu; rfl
  | false =>
    rcases (done_iff s).mp hd with hs | hs
    · rw [cycleRow_eq_of_condition (r := .successDone) ⟨hr, hs⟩] at hu
      cases hu; rfl
    · rw [cycleRow_eq_of_condition (r := .failureDone) ⟨hr, hs⟩] at hu
      cases hu; rfl

/-- Settles O21: port by port from the registers; a done cycle is followed by an IDLE one. -/
theorem outputsAreFunctionsOfTheRegisters : Obligations.OutputsAreFunctionsOfTheRegisters := by
  intro s
  refine ⟨lineOe_iff s, lineOut_eq_low_iff s, busy_iff s, done_iff s, rfl, rfl, rfl, rfl, rfl, rfl, rfl,
    fun _ => rfl, fun t hd h => ?_⟩
  have ht : t.state = .idle := step_of_done hd h
  simp [outputs, done, ht]

/-- Settles O22, by reading the reset state off its definition. -/
theorem resetStateHasTheSpecsValues : Obligations.ResetStateHasTheSpecsValues :=
  ⟨rfl, rfl, rfl, rfl, rfl, rfl, rfl, rfl, rfl, rfl, rfl, rfl, rfl, rfl, rfl, rfl, rfl⟩

/-! ### Which inputs a cycle reads (R30) -/

/-- The inputs `x` have the values of the present cycle's at every port that a rule of the present state names. -/
structure AgreesWhereNamed (s : State) (x : Inputs) : Prop where
  rst : x.rst = s.inputs.rst
  start : s.inputs.rst = false → s.state = .idle → x.start = s.inputs.start
  usTick : s.inputs.rst = false → s.state = .hsLow ∨ s.state = .hsHigh → x.usTick = s.inputs.usTick
  sampleTick : s.inputs.rst = false → s.state = .sampling → x.sampleTick = s.inputs.sampleTick
  lineIn : s.inputs.rst = false → s.state = .sampling → s.inputs.sampleTick = true → x.lineIn = s.inputs.lineIn
  wallclock : s.inputs.rst = false → s.state = .decoding → s.di = s.tlen → x.wallclock = s.inputs.wallclock

/-- The named inputs alone decide which row's condition is met. -/
theorem RowCondition.withInputs {s : State} {x : Inputs} {r : Row} (ha : AgreesWhereNamed s x)
    (hc : RowCondition s r) : RowCondition (s.withInputs x) r := by
  cases r with
  | reset => exact ha.rst.trans hc
  | attemptRead | idleWait =>
    obtain ⟨hr, hs, ht⟩ := hc
    exact ⟨ha.rst.trans hr, hs, (ha.start hr hs).trans ht⟩
  | hsLowWait | hsLowTick =>
    obtain ⟨hr, hs, hu⟩ := hc
    exact ⟨ha.rst.trans hr, hs, (ha.usTick hr (.inl hs)).trans hu⟩
  | hsHighWait | hsHighTick =>
    obtain ⟨hr, hs, hu⟩ := hc
    exact ⟨ha.rst.trans hr, hs, (ha.usTick hr (.inr hs)).trans hu⟩
  | sampleWait =>
    obtain ⟨hr, hs, hk⟩ := hc
    exact ⟨ha.rst.trans hr, hs, (ha.sampleTick hr hs).trans hk⟩
  | sampleSame =>
    obtain ⟨hr, hs, hk, hl⟩ := hc
    exact ⟨ha.rst.trans hr, hs, (ha.sampleTick hr hs).trans hk, (ha.lineIn hr hs hk).trans hl⟩
  | sampleChange =>
    obtain ⟨hr, hs, hk, hl⟩ := hc
    exact ⟨ha.rst.trans hr, hs, (ha.sampleTick hr hs).trans hk, (ha.lineIn hr hs hk).trans_ne hl⟩
  | decodeEntry | validate | successDone | failureDone | unusedState =>
    obtain ⟨hr, hs⟩ := hc
    exact ⟨ha.rst.trans hr, hs⟩

/-- The edge overwrites the inputs of the cycle it ends. -/
@[simp] theorem State.clockInputs_withInputs (s : State) (x : Inputs) :
    (s.withInputs x).clockInputs = s.clockInputs := by
  unfold State.clockInputs
  rw [State.withInputs_stimulus]
  cases s.stimulus <;> rfl

theorem handshakeTick_withInputs (n : Nat) (after : AttemptState) (s : State) (x : Inputs) :
    handshakeTick n after (s.withInputs x) = (handshakeTick n after s).withInputs x := by
  unfold handshakeTick
  rw [apply_ite (State.withInputs · x)]
  rfl

theorem afterChange_withInputs {s : State} {x : Inputs} (hl : x.lineIn = s.inputs.lineIn) :
    afterChange (s.withInputs x) = (afterChange s).withInputs x := by
  unfold afterChange
  rw [State.withInputs_inputs, hl]
  rw [apply_ite (State.withInputs · x)]
  rfl

theorem afterEntry_withInputs (s : State) (x : Inputs) :
    afterEntry (s.withInputs x) = (afterEntry s).withInputs x := by
  unfold afterEntry
  rw [apply_ite (State.withInputs · x)]
  rfl

theorem publishSuccess_withInputs {s : State} {x : Inputs} (hw : x.wallclock = s.inputs.wallclock) :
    (s.withInputs x).publishSuccess = s.publishSuccess.withInputs x := by
  unfold State.publishSuccess
  rw [State.withInputs_inputs, hw]
  rfl

/-- States that differ in their inputs alone are the same after the edge. -/
theorem clockEdge_next_of_eq_withInputs {s t : State} {x : Inputs} (h : t = s.withInputs x) :
    clockEdge (.next t) = clockEdge (.next s) := by
  rw [h, clockEdge_next, clockEdge_next, State.clockInputs_withInputs]

/-- Up to the edge, a rule reads no input but `line_in` in SAMPLE_CHANGE and `wallclock` in VALIDATE. -/
theorem clockEdge_rowMeaning_withInputs {r : Row} {s : State} {x : Inputs}
    (hl : r = .sampleChange → x.lineIn = s.inputs.lineIn)
    (hw : r = .validate → x.wallclock = s.inputs.wallclock) :
    clockEdge (rowMeaning r (s.withInputs x)) = clockEdge (rowMeaning r s) := by
  cases r with
  | reset | attemptRead | idleWait | hsLowWait | hsHighWait | sampleWait | successDone | failureDone
  | unusedState => exact clockEdge_next_of_eq_withInputs rfl
  | hsLowTick | hsHighTick => exact clockEdge_next_of_eq_withInputs (handshakeTick_withInputs _ _ s x)
  | sampleSame =>
    simp only [rowMeaning]
    by_cases hc : s.cnt.toNat = 254
    · rw [execSampleSame_last hc, execSampleSame_last (s := s.withInputs x) hc]
      exact clockEdge_next_of_eq_withInputs rfl
    · rw [execSampleSame_count hc, execSampleSame_count (s := s.withInputs x) hc]
      exact clockEdge_next_of_eq_withInputs rfl
  | sampleChange =>
    simp only [rowMeaning]
    rcases Nat.lt_or_ge s.tlen.toNat 85 with h | h
    · rw [execSampleChange_of_lt h, execSampleChange_of_lt (s := s.withInputs x) h]
      exact clockEdge_next_of_eq_withInputs (afterChange_withInputs (hl rfl))
    · rw [execSampleChange_of_ge h, execSampleChange_of_ge (s := s.withInputs x) h]
      rfl
  | decodeEntry =>
    simp only [rowMeaning]
    rcases Nat.lt_or_ge s.di.toNat 85 with h | h
    · rw [execDecodeEntry_of_lt h, execDecodeEntry_of_lt (s := s.withInputs x) h]
      exact clockEdge_next_of_eq_withInputs (afterEntry_withInputs s x)
    · rw [execDecodeEntry_of_ge h, execDecodeEntry_of_ge (s := s.withInputs x) h]
      rfl
  | validate =>
    simp only [rowMeaning]
    unfold execValidate
    rw [State.withInputs_nbits, State.withInputs_shift]
    split
    · exact clockEdge_next_of_eq_withInputs (publishSuccess_withInputs (hw rfl))
    · exact clockEdge_next_of_eq_withInputs rfl

/-- A step depends on no input that no rule of the present state names. -/
theorem step_withInputs {s : State} {x : Inputs} (ha : AgreesWhereNamed s x) :
    step (s.withInputs x) = step s := by
  have hc : RowCondition s (cycleRow s) := rowCondition_cycleRow s
  rw [step_of_condition (hc.withInputs ha), step_eq]
  refine clockEdge_rowMeaning_withInputs (fun h => ?_) (fun h => ?_)
  · obtain ⟨hr, hs, hk, -⟩ := (cycleRow_eq_iff s _).mp h
    exact ha.lineIn hr hs hk
  · obtain ⟨hr, hs, hd⟩ := (cycleRow_eq_iff s _).mp h
    exact ha.wallclock hr hs hd

/-- Settles O24: the named inputs decide the row, and its rule reads no other input. -/
theorem inputsMatterOnlyWhereARuleNamesThem : Obligations.InputsMatterOnlyWhereARuleNamesThem := by
  intro s x hrst h
  refine step_withInputs ⟨hrst, fun hr => ?_, fun hr => ?_, fun hr => ?_, fun hr => ?_, fun hr => ?_⟩
  all_goals obtain ⟨hstart, hus, hsample, hline, hwall⟩ := h hr
  · exact hstart
  · exact hus
  · exact hsample
  · exact hline
  · exact hwall

/-! ### The reachable values (R56) -/

/-- R56 made inductive: until sampling ends, TRACE has room for an entry and nothing has saturated. -/
structure RunningValues (s : State) : Prop extends ReachableValues s where
  room : s.state = .hsLow ∨ s.state = .hsHigh ∨ s.state = .sampling → s.tlen.toNat < traceCap ∧ s.sat = false

/-- A strobe that is not the last of `n` is counted below `n`. -/
theorem toNat_tcntPlusOne_lt {n : Nat} {s : State} (hn : n ≤ 32767) (hlt : s.tcnt.toNat < n)
    (hne : s.tcnt.toNat ≠ n - 1) : (tcntPlusOne s).toNat < n := by
  rw [toNat_tcntPlusOne (by omega)]
  omega

theorem runningValues_resetRegisters (s : State) : RunningValues s.resetRegisters where
  tlen_le := Nat.zero_le _
  di_le := Nat.le_refl _
  nbits_le := Nat.zero_le _
  cnt_le := Nat.zero_le _
  cnt_sat := nofun
  tcnt_low := nofun
  tcnt_high := nofun
  legal := nofun
  room := by simp

theorem runningValues_beginAttempt (s : State) : RunningValues s.beginAttempt where
  tlen_le := Nat.zero_le _
  di_le := Nat.le_refl _
  nbits_le := Nat.zero_le _
  cnt_le := Nat.zero_le _
  cnt_sat := nofun
  tcnt_low := fun _ => Nat.zero_lt_succ 19999
  tcnt_high := nofun
  legal := nofun
  room := fun _ => ⟨Nat.zero_lt_succ 84, rfl⟩

namespace RunningValues

variable {s : State} (h : RunningValues s)
include h

theorem clockInputs : RunningValues s.clockInputs := by
  unfold State.clockInputs
  cases s.stimulus <;> exact { h with }

theorem goto_idle : RunningValues (s.goto .idle) :=
  { h with tcnt_low := nofun, tcnt_high := nofun, legal := nofun, room := by simp }

theorem publish {st : AttemptState} (hst : st = .success ∨ st = .failure) (o : DecodeOutcome)
    (hi hf ti tf : Byte) (now : Timestamp) : RunningValues (s.publish st o hi hf ti tf now) := by
  rcases hst with rfl | rfl <;>
    exact { h with tcnt_low := nofun, tcnt_high := nofun, legal := nofun, room := by simp }

/-- R124: the count stays below `N_REQ_LOW`, and HS_HIGH is entered with TCNT 0. -/
theorem hsLowTick (hs : s.state = .hsLow) : RunningValues (handshakeTick nReqLow .hsHigh s) := by
  by_cases hc : s.tcnt.toNat = nReqLow - 1
  · rw [handshakeTick_last hc]
    exact { h with tcnt_low := nofun, tcnt_high := fun _ => Nat.zero_lt_succ 39, legal := nofun,
                   room := fun _ => h.room (.inl hs) }
  · rw [handshakeTick_count hc]
    have hn : (tcntPlusOne s).toNat < nReqLow := toNat_tcntPlusOne_lt (by decide) (h.tcnt_low hs) hc
    exact { h with tcnt_low := fun _ => hn, tcnt_high := fun hh => by simp [hs] at hh }

/-- R126: the count stays below `N_REQ_HIGH`. -/
theorem hsHighTick (hs : s.state = .hsHigh) : RunningValues (handshakeTick nReqHigh .sampling s) := by
  by_cases hc : s.tcnt.toNat = nReqHigh - 1
  · rw [handshakeTick_last hc]
    exact { h with tcnt_low := nofun, tcnt_high := nofun, legal := nofun,
                   room := fun _ => h.room (.inr (.inl hs)) }
  · rw [handshakeTick_count hc]
    have hn : (tcntPlusOne s).toNat < nReqHigh := toNat_tcntPlusOne_lt (by decide) (h.tcnt_high hs) hc
    exact { h with tcnt_low := fun hh => by simp [hs] at hh, tcnt_high := fun _ => hn }

/-- R128: CNT reaches 255 only together with SAT. -/
theorem sampleSame (hs : s.state = .sampling) :
    ∃ t, execSampleSame s = .next t ∧ RunningValues t := by
  by_cases hc : s.cnt.toNat = 254
  · refine ⟨_, execSampleSame_last hc, ?_⟩
    exact { h with cnt_le := Nat.le_refl _, cnt_sat := fun _ => rfl, tcnt_low := nofun, tcnt_high := nofun,
                   legal := nofun, room := by simp }
  · obtain ⟨-, hsat⟩ := h.room (.inr (.inr hs))
    have hle : s.cnt.toNat ≤ 255 := h.cnt_le
    have hne : s.cnt.toNat ≠ 255 := fun hh => by simpa [hsat] using h.cnt_sat hh
    have hn : (cntPlusOne s).toNat < 255 := by
      rw [toNat_cntPlusOne (by omega)]
      omega
    refine ⟨_, execSampleSame_count hc, ?_⟩
    exact { h with cnt_le := hn.le, cnt_sat := fun hh => absurd hh hn.ne }

/-- Where TRACE has room, one more entry keeps the bounds of R56. -/
theorem recordTransition (htlen : s.tlen.toNat < 85) (l : Level) : ReachableValues (s.recordTransition l) := by
  have hnext : (s.tlen + 1#7).toNat = s.tlen.toNat + 1 := toNat_succ7 (by omega)
  have hdi : s.di.toNat ≤ s.tlen.toNat := h.di_le
  refine { h with tlen_le := ?_, di_le := ?_, cnt_le := Nat.zero_le _, cnt_sat := nofun }
  · rw [State.recordTransition_tlen, hnext]
    exact htlen
  · rw [State.recordTransition_tlen, hnext, State.recordTransition_di]
    omega

/-- R129: the 85th entry ends sampling; after any other there is room for one more. -/
theorem sampleChange (hs : s.state = .sampling) : RunningValues (afterChange s) := by
  obtain ⟨htlen, hsat⟩ := h.room (.inr (.inr hs))
  have hrecord := h.recordTransition htlen s.inputs.lineIn
  unfold afterChange
  split
  · exact { hrecord with tcnt_low := nofun, tcnt_high := nofun, legal := nofun, room := by simp }
  next hcap =>
    refine { hrecord with room := fun _ => ⟨?_, hsat⟩ }
    exact Nat.lt_of_le_of_ne hrecord.tlen_le (by
      rwa [State.recordTransition_tlen, toNat_succ7 (Nat.lt_of_lt_of_le htlen (by decide))])

theorem di_lt (hd : s.di ≠ s.tlen) : s.di.toNat < s.tlen.toNat :=
  Nat.lt_of_le_of_ne h.di_le fun hh => hd (BitVec.eq_of_toNat_eq hh)

theorem nextEntry (hd : s.di ≠ s.tlen) : RunningValues s.nextEntry := by
  have hlt : s.di.toNat < s.tlen.toNat := h.di_lt hd
  refine { h with di_le := ?_ }
  rw [State.nextEntry_di, toNat_succ7 (by omega), State.nextEntry_tlen]
  exact hlt

theorem appendBit (hn : s.nbits.toNat < 40) (b : Bool) : RunningValues (s.appendBit b) := by
  refine { h with nbits_le := ?_ }
  rw [State.appendBit_nbits, toNat_succ6 (by omega)]
  exact hn

/-- R161: DI goes no further than TLEN, and a bit is counted only while there are fewer than 40. -/
theorem decodeEntry (hd : s.di ≠ s.tlen) : RunningValues (afterEntry s) := by
  unfold afterEntry
  split
  next hbit =>
    obtain ⟨-, hn⟩ := hbit
    exact (h.appendBit hn _).nextEntry hd
  · exact h.nextEntry hd

theorem validate : ∃ t, execValidate s = .next t ∧ RunningValues t := by
  rcases execValidate_cases s with ⟨-, hv⟩ | ⟨-, -, hv⟩ | ⟨-, -, hv⟩
  · exact ⟨_, hv, h.publish (.inr rfl) ..⟩
  · exact ⟨_, hv, h.publish (.inl rfl) ..⟩
  · exact ⟨_, hv, h.publish (.inr rfl) ..⟩

/-- The row a cycle runs answers a next state and keeps the values. -/
theorem rowMeaning_next {r : Row} (hc : RowCondition s r) :
    ∃ t, rowMeaning r s = .next t ∧ RunningValues t := by
  cases r with
  | reset => exact ⟨_, rfl, runningValues_resetRegisters s⟩
  | attemptRead => exact ⟨_, rfl, runningValues_beginAttempt s⟩
  | idleWait | hsLowWait | hsHighWait | sampleWait => exact ⟨s, rfl, h⟩
  | hsLowTick =>
    obtain ⟨-, hs, -⟩ := hc
    exact ⟨_, rfl, h.hsLowTick hs⟩
  | hsHighTick =>
    obtain ⟨-, hs, -⟩ := hc
    exact ⟨_, rfl, h.hsHighTick hs⟩
  | sampleSame =>
    obtain ⟨-, hs, -, -⟩ := hc
    exact h.sampleSame hs
  | sampleChange =>
    obtain ⟨-, hs, -, -⟩ := hc
    exact ⟨_, execSampleChange_of_lt (h.room (.inr (.inr hs))).1, h.sampleChange hs⟩
  | decodeEntry =>
    obtain ⟨-, hs, hd⟩ := hc
    exact ⟨_, execDecodeEntry_of_lt (Nat.lt_of_lt_of_le (h.di_lt hd) h.tlen_le), h.decodeEntry hd⟩
  | validate => exact h.validate
  | successDone | failureDone | unusedState => exact ⟨_, rfl, h.goto_idle⟩

theorem step_next : ∃ t, step s = .next t ∧ RunningValues t := by
  obtain ⟨u, hu, hk⟩ := h.rowMeaning_next (rowCondition_cycleRow s)
  exact ⟨u.clockInputs, by rw [step_eq, hu]; rfl, hk.clockInputs⟩

end RunningValues

/-- The values are kept along every run. -/
theorem RunningValues.run_next (n : Nat) {s : State} (h : RunningValues s) :
    ∃ t, run n s = .next t ∧ RunningValues t := by
  induction n generalizing s with
  | zero => exact ⟨s, rfl, h⟩
  | succ n ih =>
    obtain ⟨u, hu, hk⟩ := h.step_next
    obtain ⟨t, ht, hkt⟩ := ih hk
    exact ⟨t, (run_succ_of_step hu).trans ht, hkt⟩

/-- Settles O35, by induction on the length of the run, with R56 made inductive. -/
theorem reachableValuesHoldFromReset : Obligations.ReachableValuesHoldFromReset := by
  intro n s _ hreset
  have h0 : RunningValues s := hreset ▸ runningValues_resetRegisters s
  obtain ⟨t, ht, hk⟩ := h0.run_next n
  exact ⟨t, ht, hk.toReachableValues⟩

end Sys2Proof.Machine

/-! SUPPORT. Proofs of the family 30_encoding: the codes of values, the fields of a dispatch word, the opcode
table, and the successors of each state. -/

namespace Sys2Proof.Machine

/-! ### Codes of values (R90, R91, R94) -/

@[simp] theorem ofCode_code (st : AttemptState) : AttemptState.ofCode st.code = st := by
  cases st <;> rfl

@[simp] theorem code_ofCode (c : BitVec 3) : (AttemptState.ofCode c).code = c := by
  revert c; decide

@[simp] theorem levelOfBit_levelBit (l : Level) : levelOfBit (levelBit l) = l := by
  cases l <;> rfl

@[simp] theorem levelBit_levelOfBit (b : Bool) : levelBit (levelOfBit b) = b := by
  cases b <;> rfl

/-- A bit of a word is its slice of width 1. -/
theorem ofBool_getLsbD {n : Nat} (w : BitVec n) (i : Nat) :
    BitVec.ofBool (w.getLsbD i) = w.extractLsb' i 1 := by
  ext j hj
  obtain rfl : j = 0 := by omega
  simp

/-- A slice of a word, with the bit below it, is a slice one bit wider. -/
theorem extractLsb'_append_ofBool {n len i : Nat} (w : BitVec n) :
    w.extractLsb' (i + 1) len ++ BitVec.ofBool (w.getLsbD i) = w.extractLsb' i (len + 1) := by
  rw [ofBool_getLsbD]
  exact BitVec.extractLsb'_append_extractLsb'_eq_extractLsb' rfl

theorem getLsbD_observationBits (e : Observation) :
    (observationBits e).getLsbD 8 = levelBit e.resultingLevel := by
  simp only [observationBits, BitVec.getLsbD_append, BitVec.getLsbD_ofBool]
  rfl

theorem extractLsb'_observationBits (e : Observation) :
    (observationBits e).extractLsb' 0 8 = e.durationTicks :=
  BitVec.extractLsb'_append_eq_right

theorem observationOfBits_observationBits (e : Observation) :
    observationOfBits (observationBits e) = e := by
  rw [observationOfBits, getLsbD_observationBits, extractLsb'_observationBits, levelOfBit_levelBit]

theorem observationBits_observationOfBits (b : BitVec 9) :
    observationBits (observationOfBits b) = b := by
  rw [observationBits, observationOfBits, levelBit_levelOfBit, ofBool_getLsbD]
  exact (BitVec.extractLsb'_append_extractLsb'_eq_extractLsb' rfl).trans BitVec.extractLsb'_eq_self

/-- Settles O8: the tables by reading them, the layouts by taking an entry apart and putting it together. -/
theorem valuesHaveTheSpecsCodes : Obligations.ValuesHaveTheSpecsCodes :=
  ⟨rfl, rfl, rfl, rfl, ofCode_code,
    fun e => ⟨getLsbD_observationBits e, extractLsb'_observationBits e, observationOfBits_observationBits e⟩,
    observationBits_observationOfBits⟩

/-! ### The fields of a dispatch word (R96) -/

section
variable (st : AttemptState) (r t u k c : Bool)

theorem fields_packWord :
    stateField (packWord st r t u k c) = st ∧ startField (packWord st r t u k c) = t ∧
    usTickField (packWord st r t u k c) = u ∧ sampleTickField (packWord st r t u k c) = k ∧
    condField (packWord st r t u k c) = c := by
  simpa only [Row.build, Instr.reset.injEq] using build_packWord st r t u k c .reset

theorem getLsbD_packWord_rst : (packWord st r t u k c).getLsbD 4 = r := by
  simp only [packWord, BitVec.getLsbD_append, BitVec.getLsbD_ofBool]
  rfl

end

/-- Every word is packed from its fields. -/
theorem packWord_fields (w : Byte) :
    packWord (stateField w) (w.getLsbD 4) (startField w) (usTickField w) (sampleTickField w)
      (condField w) = w := by
  rw [packWord, stateField, startField, usTickField, sampleTickField, condField, code_ofCode]
  simp only [extractLsb'_append_ofBool]
  exact BitVec.extractLsb'_eq_self

/-! ### The opcode table is complete and unambiguous (R99) -/

theorem mem_rowAll (r : Row) : r ∈ Row.all := by
  cases r <;> decide

/-- Different rows ask different values of some bit that both test. -/
theorem row_eq_of_agree {q r : Row} (h : q.matchBits &&& r.mask = r.matchBits &&& q.mask) : q = r := by
  have table : ∀ q ∈ Row.all, ∀ r ∈ Row.all,
      q.matchBits &&& r.mask = r.matchBits &&& q.mask → q = r := by decide
  exact table q (mem_rowAll q) r (mem_rowAll r) h

theorem row_eq_of_both_match {w : Byte} {q r : Row} (hq : w &&& q.mask = q.matchBits)
    (hr : w &&& r.mask = r.matchBits) : q = r :=
  row_eq_of_agree <| calc
    q.matchBits &&& r.mask = w &&& q.mask &&& r.mask := by rw [hq]
    _ = w &&& r.mask &&& q.mask := by rw [BitVec.and_assoc, BitVec.and_comm q.mask, BitVec.and_assoc]
    _ = r.matchBits &&& q.mask := by rw [hr]

theorem exists_rowOf (w : Byte) : ∃ r, rowOf w = some r := by
  rw [← packWord_fields w, rowOf_packWord]
  exact ⟨_, rfl⟩

theorem match_of_rowOf {w : Byte} {r : Row} (h : rowOf w = some r) : w &&& r.mask = r.matchBits := by
  have hits : r.hits w = true := List.find?_some (p := fun q => Row.hits q w) h
  exact beq_iff_eq.mp hits

theorem rowOf_eq_some_iff (w : Byte) (r : Row) : rowOf w = some r ↔ w &&& r.mask = r.matchBits := by
  refine ⟨match_of_rowOf, fun hr => ?_⟩
  obtain ⟨q, hq⟩ := exists_rowOf w
  rwa [← row_eq_of_both_match (match_of_rowOf hq) hr]

/-- RESET tests bit 4 alone. -/
theorem rowOf_eq_reset_iff (w : Byte) : rowOf w = some .reset ↔ w.getLsbD 4 = true := by
  have hmask : w &&& Row.reset.mask = if w.getLsbD 4 then Row.reset.matchBits else 0#8 :=
    BitVec.and_twoPow w 4
  rw [rowOf_eq_some_iff, hmask]
  cases w.getLsbD 4 <;> decide

theorem decode_of_rowOf {w : Byte} {r : Row} (h : rowOf w = some r) (rest : List Byte) :
    decode (w :: rest) = .ok (r.build w, rest) := by
  simp only [decode, h]

/-- The rule a word runs is its row's. -/
theorem exec_of_decode {w : Byte} {r : Row} {i : Instr} (hr : rowOf w = some r)
    (hi : decode [w] = .ok (i, [])) (s : State) : exec i s = rowMeaning r s := by
  rw [decode_of_rowOf hr] at hi
  cases hi
  rw [exec_eq_rowMeaning, row_build]

/-- Settles O3: a word has a row by its fields, and no second one, as different rows disagree on a tested bit. -/
theorem opcodeTableIsCompleteAndUnambiguous : Obligations.OpcodeTableIsCompleteAndUnambiguous := by
  refine ⟨fun w => ?_, rowOf_eq_reset_iff, fun w v i j s hwv hi hj => ?_⟩
  · obtain ⟨r, hr⟩ := exists_rowOf w
    exact ⟨r, match_of_rowOf hr, fun q hq => row_eq_of_both_match hq (match_of_rowOf hr)⟩
  · obtain ⟨r, hr⟩ := exists_rowOf v
    rw [exec_of_decode (hwv.trans hr) hi, exec_of_decode hr hj]

/-! ### The dispatch word of a cycle (R97) -/

theorem condBit_iff (s : State) : condBit s = true ↔
    (s.state = .sampling ∧ s.inputs.lineIn = s.ref) ∨ (s.state = .decoding ∧ s.di = s.tlen) := by
  unfold condBit
  cases s.state <;> simp

theorem condAllowed_condBit (s : State) : condAllowed s.state (condBit s) = true := by
  unfold condBit
  cases s.state <;> rfl

theorem decode_fetchBytes (s : State) :
    decode (fetchBytes s) = .ok ((cycleRow s).build (dispatchWord s), []) :=
  decode_of_rowOf (rowOf_dispatchWord s) []

/-- A row that keeps `cond` as an untested bit is run in the state its pattern names, where that `cond` is allowed. -/
theorem wellFormed_build {s : State} {r : Row} (hc : RowCondition s r) :
    (r.build (dispatchWord s)).WellFormed = true := by
  have hcond := condAllowed_condBit s
  rw [dispatchWord, build_packWord]
  cases r with
  | reset => exact hcond
  | attemptRead | idleWait | hsLowWait | hsLowTick | hsHighWait | hsHighTick | sampleWait =>
    obtain ⟨-, hs, -⟩ := hc
    rwa [hs] at hcond
  | sampleSame | sampleChange | decodeEntry | validate => rfl
  | successDone | failureDone | unusedState =>
    obtain ⟨-, hs⟩ := hc
    rwa [hs] at hcond

/-- Settles O5: the fields a word was packed from are read back, and `cond` is the one its state forms. -/
theorem dispatchWordIsFormedFromStateAndInputs : Obligations.DispatchWordIsFormedFromStateAndInputs := by
  intro s
  obtain ⟨hstate, hstart, hus, hsample, hcond⟩ :=
    fields_packWord s.state s.inputs.rst s.inputs.start s.inputs.usTick s.inputs.sampleTick (condBit s)
  refine ⟨?_, getLsbD_packWord_rst .., hstart, hus, hsample, ?_, _, decode_fetchBytes s,
    wellFormed_build (rowCondition_cycleRow s)⟩
  · exact (code_ofCode _).symm.trans (congrArg AttemptState.code hstate)
  · exact (Bool.eq_iff_iff.mp hcond).trans (condBit_iff s)

/-! ### The successors of each state (R98) -/

/-- The successors of a state without a reset. -/
def successors : AttemptState → List AttemptState
  | .idle => [.idle, .hsLow]
  | .hsLow => [.hsLow, .hsHigh]
  | .hsHigh => [.hsHigh, .sampling]
  | .sampling => [.sampling, .decoding]
  | .decoding => [.decoding, .success, .failure]
  | .success | .failure | .unused => [.idle]

theorem handshakeTick_state (n : Nat) (after : AttemptState) (s : State) :
    (handshakeTick n after s).state = s.state ∨ (handshakeTick n after s).state = after := by
  unfold handshakeTick
  split
  · exact .inr rfl
  · exact .inl rfl

theorem execSampleSame_state {s t : State} (h : execSampleSame s = .next t) :
    t.state = s.state ∨ t.state = .decoding := by
  by_cases hc : s.cnt.toNat = 254
  · rw [execSampleSame_last hc] at h
    cases h; exact .inr rfl
  · rw [execSampleSame_count hc] at h
    cases h; exact .inl rfl

theorem execSampleChange_state {s t : State} (h : execSampleChange s = .next t) :
    t.state = s.state ∨ t.state = .decoding := by
  obtain ⟨-, rfl⟩ := withTraceIndex_eq_next h
  split
  · exact .inr rfl
  · exact .inl rfl

theorem execDecodeEntry_state {s t : State} (h : execDecodeEntry s = .next t) : t.state = s.state := by
  obtain ⟨-, rfl⟩ := withTraceIndex_eq_next h
  split <;> rfl

theorem execValidate_state {s t : State} (h : execValidate s = .next t) :
    t.state = .success ∨ t.state = .failure := by
  rcases execValidate_cases s with ⟨-, hv⟩ | ⟨-, -, hv⟩ | ⟨-, -, hv⟩ <;> rw [hv] at h <;> cases h
  · exact .inr rfl
  · exact .inl rfl
  · exact .inr rfl

theorem rowMeaning_state_mem_successors {s t : State} {r : Row} (hrst : s.inputs.rst = false)
    (hc : RowCondition s r) (h : rowMeaning r s = .next t) : t.state ∈ successors s.state := by
  cases r with
  | reset => exact absurd (hrst.symm.trans hc) (by decide)
  | attemptRead | idleWait | hsLowWait | hsHighWait | sampleWait =>
    obtain ⟨-, hs, -⟩ := hc
    cases h
    simp [hs, successors]
  | hsLowTick | hsHighTick =>
    obtain ⟨-, hs, -⟩ := hc
    cases h
    simpa [hs, successors] using handshakeTick_state _ _ s
  | sampleSame =>
    obtain ⟨-, hs, -, -⟩ := hc
    simpa [hs, successors] using execSampleSame_state h
  | sampleChange =>
    obtain ⟨-, hs, -, -⟩ := hc
    simpa [hs, successors] using execSampleChange_state h
  | decodeEntry =>
    obtain ⟨-, hs, -⟩ := hc
    simp [execDecodeEntry_state h, hs, successors]
  | validate =>
    obtain ⟨-, hs, -⟩ := hc
    simpa [hs, successors] using Or.inr (execValidate_state h)
  | successDone | failureDone | unusedState =>
    obtain ⟨-, hs⟩ := hc
    cases h
    simp [hs, successors]

theorem step_state_mem_successors {s t : State} (hrst : s.inputs.rst = false) (h : step s = .next t) :
    t.state ∈ successors s.state := by
  obtain ⟨u, hu, rfl⟩ := step_inv h
  rw [State.clockInputs_state]
  exact rowMeaning_state_mem_successors hrst (rowCondition_cycleRow s) hu

theorem step_of_rst {s : State} (hrst : s.inputs.rst = true) :
    step s = .next s.resetRegisters.clockInputs :=
  step_of_condition (r := .reset) hrst

/-- Settles O6: the row is `cycleRow`, read state by state, and every step goes to a listed successor. -/
theorem dispatchSelectsTheRowOfTheOpcodeMap : Obligations.DispatchSelectsTheRowOfTheOpcodeMap := by
  refine ⟨fun s => ?_, fun s t h => ⟨fun hrst => ?_, fun hrst => ?_⟩, rfl⟩
  · rw [rowOf_dispatchWord, cycleRow]
    refine ⟨fun hrst => by rw [if_pos hrst], fun hrst => ?_⟩
    rw [hrst]
    refine ⟨fun hs => ?_, fun hs => ?_, fun hs => ?_, fun hs hk => ?noStrobe, fun hs hk => ?strobe,
      fun hs => ?_, fun hs => ?_, fun hs => ?_, fun hs => ?_⟩
    all_goals rw [hs]
    case noStrobe | strobe => rw [hk]; rfl
    all_goals rfl
  · rw [step_of_rst hrst] at h
    cases h
    exact State.clockInputs_state _
  · have hmem : t.state ∈ successors s.state := step_state_mem_successors hrst h
    refine ⟨fun hs => ?_, fun hs => ?_, fun hs => ?_, fun hs => ?_, fun hs => ?_, ?done⟩
    case done => rintro (hs | hs | hs) <;> simpa [hs, successors] using hmem
    all_goals simpa [hs, successors] using hmem

end Sys2Proof.Machine

/-! SUPPORT. Proofs of the family 40_pulse_sampler: each rule's words, when it runs and its effect, and the end
of SAMPLING. -/

namespace Sys2Proof.Machine

/-! ### When a rule runs (R98) -/

theorem rowOf_dispatchWord_iff (s : State) (r : Row) : rowOf (dispatchWord s) = some r ↔ RowCondition s r := by
  rw [rowOf_dispatchWord, Option.some_inj, cycleRow_eq_iff]

/-! ### The end of SAMPLING (R133) -/

/-- All that a cycle of SAMPLING without a reset can do: wait, saturate, count a sample, or record a change. -/
theorem step_sampling_cases {s t : State} (hr : s.inputs.rst = false) (hs : s.state = .sampling)
    (h : step s = .next t) :
    (s.inputs.sampleTick = false ∧ t = s.clockInputs) ∨
    (s.inputs.sampleTick = true ∧ s.inputs.lineIn = s.ref ∧ s.cnt.toNat = 254 ∧ t = s.saturate.clockInputs) ∨
    (s.inputs.sampleTick = true ∧ s.inputs.lineIn = s.ref ∧ s.cnt.toNat ≠ 254 ∧
      t = (s.setCnt (cntPlusOne s)).clockInputs) ∨
    (s.inputs.sampleTick = true ∧ s.inputs.lineIn ≠ s.ref ∧ s.tlen.toNat < 85 ∧
      t = (afterChange s).clockInputs) := by
  obtain ⟨u, hu, rfl⟩ := step_inv h
  cases hk : s.inputs.sampleTick with
  | false =>
    rw [cycleRow_eq_of_condition (r := .sampleWait) ⟨hr, hs, hk⟩] at hu
    cases hu
    exact .inl ⟨rfl, rfl⟩
  | true =>
    by_cases hl : s.inputs.lineIn = s.ref
    · rw [cycleRow_eq_of_condition (r := .sampleSame) ⟨hr, hs, hk, hl⟩] at hu
      simp only [rowMeaning] at hu
      by_cases hc : s.cnt.toNat = 254
      · rw [execSampleSame_last hc] at hu
        cases hu
        exact .inr (.inl ⟨rfl, hl, hc, rfl⟩)
      · rw [execSampleSame_count hc] at hu
        cases hu
        exact .inr (.inr (.inl ⟨rfl, hl, hc, rfl⟩))
    · rw [cycleRow_eq_of_condition (r := .sampleChange) ⟨hr, hs, hk, hl⟩] at hu
      obtain ⟨hlt, rfl⟩ := withTraceIndex_eq_next hu
      exact .inr (.inr (.inr ⟨rfl, hl, hlt, rfl⟩))

/-- A measurement takes at most 255 samples, so this many may have gone into the entries recorded and into CNT. -/
def samplesSpent (s : State) : Nat := 255 * s.tlen.toNat + s.cnt.toNat

/-- How SAMPLING ends: by the cap or by saturation (R133). -/
def SamplingEnded (s : State) : Prop :=
  s.state = .decoding ∧ ((s.tlen.toNat = 85 ∧ s.sat = false) ∨ (s.tlen.toNat ≤ 84 ∧ s.sat = true))

/-- The registers meet R56 with sampling still open: TRACE has room, and nothing has saturated. -/
theorem Inv.runningValues {s : State} (h : Inv s) : RunningValues s where
  toReachableValues := h.values
  room hs := by
    obtain ⟨hsat, -⟩ := h.undecoded hs
    refine ⟨?_, hsat⟩
    rcases hs with hs | hs | hs
    · obtain ⟨-, -, htlen⟩ := h.handshake (.inl hs)
      rw [htlen]; decide
    · obtain ⟨-, -, htlen⟩ := h.handshake (.inr hs)
      rw [htlen]; decide
    · exact (h.sampling hs).1

/-- In SAMPLING, CNT is at most 254: 255 would have come with SAT. -/
theorem RunningValues.cnt_lt_of_sampling {s : State} (h : RunningValues s) (hs : s.state = .sampling) :
    s.cnt.toNat < 255 := by
  obtain ⟨-, hsat⟩ := h.room (.inr (.inr hs))
  exact Nat.lt_of_le_of_ne h.cnt_le fun hc => by simpa [hsat] using h.cnt_sat hc

/-- While SAMPLING lasts fewer than 85 × 255 samples are spent. -/
theorem RunningValues.samplesSpent_lt {s : State} (h : RunningValues s) (hs : s.state = .sampling) :
    samplesSpent s < 21675 := by
  have htlen : s.tlen.toNat < 85 := (h.room (.inr (.inr hs))).1
  have hcnt : s.cnt.toNat < 255 := h.cnt_lt_of_sampling hs
  unfold samplesSpent
  omega

/-- Every sample spends at least one: a change gives up what is left of the 255 samples of its measurement. -/
theorem RunningValues.step_sampling {s t : State} (h : RunningValues s) (hr : s.inputs.rst = false)
    (hs : s.state = .sampling) (hstep : step s = .next t) :
    SamplingEnded t ∨
      (t.state = .sampling ∧ samplesSpent s + s.inputs.sampleTick.toNat ≤ samplesSpent t) := by
  obtain ⟨htlen, hsat⟩ := h.room (.inr (.inr hs))
  rw [traceCap_eq] at htlen
  have hcnt : s.cnt.toNat < 255 := h.cnt_lt_of_sampling hs
  rcases step_sampling_cases hr hs hstep with ⟨hk, rfl⟩ | ⟨-, -, -, rfl⟩ | ⟨hk, -, -, rfl⟩ | ⟨hk, -, -, rfl⟩
  · exact .inr ⟨by simpa using hs, by simp [samplesSpent, hk]⟩
  · exact .inl ⟨by simp, .inr ⟨by simpa using Nat.le_of_lt_succ htlen, by simp⟩⟩
  · exact .inr ⟨by simpa using hs, by simp [samplesSpent, hk, toNat_cntPlusOne hcnt, Nat.add_assoc]⟩
  · have hnext : (s.tlen + 1#7).toNat = s.tlen.toNat + 1 := toNat_succ7 (by omega)
    unfold afterChange
    split
    next hcap => exact .inl ⟨by simp, .inl ⟨by simpa [hnext, traceCap_eq] using hcap, by simpa using hsat⟩⟩
    · refine .inr ⟨by simpa using hs, ?_⟩
      simp only [samplesSpent, hk, State.clockInputs_tlen, State.clockInputs_cnt, State.recordTransition_tlen,
        State.recordTransition_cnt, hnext, BitVec.toNat_ofNat, Bool.toNat_true]
      omega

theorem sampleStrobes_cons (x : Inputs) (xs : List Inputs) :
    sampleStrobes (x :: xs) = sampleStrobes xs + x.sampleTick.toNat := by
  cases hx : x.sampleTick <;> simp [sampleStrobes, hx]

/-- A step takes the head of what is fed. -/
theorem Feeds.step {s t : State} {x : Inputs} {xs : List Inputs} (hf : Feeds s (x :: xs))
    (h : step s = .next t) : Feeds t xs := by
  obtain ⟨u, hu, rfl⟩ := step_inv h
  obtain ⟨hi, hstim, -⟩ := rowMeaning_ports hu
  exact (hf.congr hi hstim).clock

/-- SAMPLING ends by the time the samples spent and the strobes still fed come to 85 × 255. -/
theorem RunningValues.sampling_ends {s : State} {xs : List Inputs} (h : RunningValues s)
    (hs : s.state = .sampling) (hf : Feeds s xs) (hn : NoReset xs)
    (hxs : 21675 ≤ samplesSpent s + sampleStrobes xs) :
    ∃ ys t, ys <+: xs ∧ samplesSpent s + sampleStrobes ys ≤ 21675 ∧ run ys.length s = .next t ∧
      SamplingEnded t := by
  have hlt : samplesSpent s < 21675 := h.samplesSpent_lt hs
  induction xs generalizing s with
  | nil => exact absurd hxs (Nat.not_le.mpr hlt)
  | cons x xs ih =>
    obtain ⟨hx, hrest⟩ := List.forall_mem_cons.mp hn
    obtain rfl := hf.head
    obtain ⟨u, hu, hku⟩ := h.step_next
    rcases h.step_sampling hx hs hu with hend | ⟨hus, hspent⟩
    · refine ⟨[s.inputs], u, ⟨xs, rfl⟩, ?_, (run_one s).trans hu, hend⟩
      have hone : s.inputs.sampleTick.toNat ≤ 1 := Bool.toNat_le _
      rw [sampleStrobes_cons, sampleStrobes, List.countP_nil]
      omega
    · rw [sampleStrobes_cons] at hxs
      obtain ⟨ys, t, hys, hle, hrun, hend⟩ :=
        ih hku hus (hf.step hu) hrest (by omega) (hku.samplesSpent_lt hus)
      refine ⟨s.inputs :: ys, t, List.cons_prefix_cons.mpr ⟨rfl, hys⟩, ?_, (run_succ_of_step hu).trans hrun, hend⟩
      rw [sampleStrobes_cons]
      omega

/-- Settles O38: every sample spends one of 85 × 255, and in SAMPLING they are never all spent. -/
theorem samplingEndsWhateverTheLineDoes : Obligations.SamplingEndsWhateverTheLineDoes := by
  intro s xs hinv hs hf hn hxs
  obtain ⟨ys, t, hys, hle, hrun, hstate, hend⟩ :=
    hinv.runningValues.sampling_ends hs hf hn (hxs.trans (Nat.le_add_left _ _))
  exact ⟨ys, t, hys, (Nat.le_add_left _ _).trans hle, hrun, hstate, hend⟩

/-! ### The rules before SAMPLING (R121 to R126) -/

/-- Settles O9: the effect is that of `State.beginAttempt`. -/
theorem attemptReadStartsAnAttempt : Obligations.AttemptReadStartsAnAttempt :=
  ⟨fun w => rowOf_eq_some_iff w .attemptRead,
    fun s => (rowOf_dispatchWord_iff s .attemptRead).trans and_left_comm,
    fun _ _ _ _ => rfl⟩

/-- Settles O10: the waiting rules answer the state they are given. -/
theorem waitingRulesChangeNothing : Obligations.WaitingRulesChangeNothing := by
  refine ⟨fun w => ?words, fun s => ?runs, fun s a b c => ⟨rfl, rfl, rfl, rfl⟩⟩
  case words =>
    exact ⟨rowOf_eq_some_iff w .idleWait, rowOf_eq_some_iff w .hsLowWait, rowOf_eq_some_iff w .hsHighWait,
      rowOf_eq_some_iff w .sampleWait⟩
  case runs =>
    exact ⟨(rowOf_dispatchWord_iff s .idleWait).trans and_left_comm,
      (rowOf_dispatchWord_iff s .hsLowWait).trans and_left_comm,
      (rowOf_dispatchWord_iff s .hsHighWait).trans and_left_comm,
      (rowOf_dispatchWord_iff s .sampleWait).trans and_left_comm⟩

/-- A strobe that is not the last of `n`, where TCNT has a successor. -/
theorem handshakeTick_succ {n : Nat} {after : AttemptState} {s : State} (hne : s.tcnt.toNat ≠ n - 1)
    (hlt : s.tcnt.toNat < 32767) : handshakeTick n after s = s.setTcnt (s.tcnt + 1#15) := by
  rw [handshakeTick_count hne, tcntPlusOne_of_lt hlt]

/-- A state that ends at its `n`-th strobe keeps TCNT below `n`. -/
theorem toNat_tcnt_handshakeTick_lt {n : Nat} {after : AttemptState} {s : State} (hn : n ≤ 32767)
    (hlt : s.tcnt.toNat < n) : (handshakeTick n after s).tcnt.toNat < n := by
  by_cases hc : s.tcnt.toNat = n - 1
  · rw [handshakeTick_last hc]
    exact Nat.zero_lt_of_lt hlt
  · rw [handshakeTick_count hc]
    exact toNat_tcntPlusOne_lt hn hlt hc

/-- Settles O11: the strobe at TCNT 19999 is the last of 20000, every other is counted. -/
theorem hsLowTickCountsOneMicrosecond : Obligations.HsLowTickCountsOneMicrosecond := by
  refine ⟨fun w => rowOf_eq_some_iff w .hsLowTick,
    fun s => (rowOf_dispatchWord_iff s .hsLowTick).trans and_left_comm,
    fun s t k c => ⟨fun hlast => ?_, fun hne hlt => ?_, fun u hle hu => ?_⟩⟩
  · exact congrArg _ (handshakeTick_last (n := nReqLow) hlast)
  · exact congrArg _ (handshakeTick_succ (n := nReqLow) hne hlt)
  · cases hu
    exact Nat.le_of_lt_succ (toNat_tcnt_handshakeTick_lt (n := nReqLow) (by decide) (Nat.lt_succ_of_le hle))

/-- Settles O12: the strobe at TCNT 39 is the last of 40 and enters SAMPLING, where the line is not driven. -/
theorem hsHighTickCountsAndReleasesTheLine : Obligations.HsHighTickCountsAndReleasesTheLine := by
  refine ⟨fun w => rowOf_eq_some_iff w .hsHighTick,
    fun s => (rowOf_dispatchWord_iff s .hsHighTick).trans and_left_comm,
    fun s t k c => ⟨fun hlast => ?_, fun hne hlt => ?_, fun u hs hlast hu => ?_⟩⟩
  · exact congrArg _ (handshakeTick_last (n := nReqHigh) hlast)
  · exact congrArg _ (handshakeTick_succ (n := nReqHigh) hne hlt)
  · cases hu
    rw [handshakeTick_last (n := nReqHigh) hlast]
    exact ⟨(lineOe_iff s).mpr (.inr hs), rfl⟩

/-! ### The rules of SAMPLING (R128, R129) -/

/-- Settles O13: the sample at CNT 254 saturates, one at a smaller CNT is counted. -/
theorem sampleSameCountsAndSaturates : Obligations.SampleSameCountsAndSaturates := by
  refine ⟨fun w => rowOf_eq_some_iff w .sampleSame,
    fun s => (rowOf_dispatchWord_iff s .sampleSame).trans and_left_comm,
    fun s t u => ⟨fun hlast => execSampleSame_last hlast, fun hlt => ?_⟩⟩
  have hcount : execSampleSame s = .next (s.setCnt (cntPlusOne s)) := execSampleSame_count hlt.ne
  rw [cntPlusOne_of_lt (hlt.trans (by decide))] at hcount
  exact hcount

theorem afterChange_eq (s : State) :
    afterChange s =
      { s with
        trace := Memory.write s.trace s.tlen.toNat ⟨s.inputs.lineIn, s.cnt⟩
        tlen := s.tlen + 1
        ref := s.inputs.lineIn
        cnt := 0
        state := if s.tlen.toNat + 1 = 85 then .decoding else s.state } := by
  unfold afterChange
  rw [traceCap_eq]
  split <;> rfl

/-- Settles O15: the entry is written at TLEN, and a write is read back at its own index alone. -/
theorem sampleChangeRecordsATransition : Obligations.SampleChangeRecordsATransition := by
  refine ⟨fun w => rowOf_eq_some_iff w .sampleChange,
    fun s => (rowOf_dispatchWord_iff s .sampleChange).trans and_left_comm,
    fun s t u hlt => ⟨Memory.write s.trace s.tlen.toNat ⟨s.inputs.lineIn, s.cnt⟩, ?_,
      Memory.read_write_same .., fun a ha => Memory.read_write_other _ _ ha⟩⟩
  have hexec : exec (.sampleChange t u) s = .next (afterChange s) := execSampleChange_of_lt hlt
  rw [hexec, afterChange_eq]

end Sys2Proof.Machine

/-! SUPPORT. Proofs of the family 41_frame_decoder: the pure functions of the decoder, the rules of DECODING and of
the done states, and that a stretch of DECODING computes `Decode` of the trace. -/

namespace Sys2Proof.Machine

/-! ### The selector and the classifier (R160, R170) -/

theorem considered_iff_exists (i : Nat) : considered i = true ↔ ∃ k, i = 4 + 2 * k := by
  rw [considered_iff]
  refine ⟨fun ⟨h4, heven⟩ => ⟨(i - 4) / 2, by omega⟩, ?_⟩
  rintro ⟨k, rfl⟩
  omega

/-- Settles O26: in arithmetic, the selector is a bound and a parity, the classifier a bound. -/
theorem selectorAndClassifier : Obligations.SelectorAndClassifier :=
  ⟨considered_iff_exists, classify_iff, rfl, rfl⟩

theorem consideredBelow_eq (n : Nat) : consideredBelow n = (n - 3) / 2 := by
  induction n with
  | zero => rfl
  | succ n ih =>
    rw [consideredBelow_succ, ih]
    simp only [considered_iff]
    split <;> omega

/-! ### The shift register (R161, R163) -/

theorem getLsbD_shiftIn (s : BitVec 40) (b : Bool) (i : Nat) :
    (shiftIn s b).getLsbD i = if i = 0 then b else decide (i - 1 < 39) && s.getLsbD (i - 1) := by
  refine BitVec.getLsbD_append.trans ?_
  cases i <;> simp

/-- Of any number of bits shifted in, the register holds the latest 40, the latest at bit 0. -/
theorem getLsbD_shiftOf (bits : List Bool) {i : Nat} (hi : i < 40) :
    (shiftOf bits).getLsbD i = bits.reverse.getD i false := by
  induction bits using List.reverseRecOn generalizing i with
  | nil => simp
  | append_singleton bits b ih =>
    rw [shiftOf_concat, getLsbD_shiftIn, List.reverse_concat]
    cases i with
    | zero => rfl
    | succ i =>
      have hlt : i < 39 := by omega
      simpa [hlt] using ih (hlt.trans (by decide))

/-- Of 40 bits, the one received `j`-th is at bit `39 - j`. -/
theorem getLsbD_shiftOf_received {bits : List Bool} {j : Nat} (hlen : bits.length = 40) (hj : j < 40) :
    (shiftOf bits).getLsbD (39 - j) = bits.getD j false := by
  rw [getLsbD_shiftOf bits (by omega), List.getD_reverse _ (by omega)]
  congr 1
  omega

theorem getLsbD_frameByte (k : Nat) (s : BitVec 40) {m : Nat} (hm : m < 8) :
    (frameByte k s).getLsbD m = s.getLsbD (32 - 8 * k + m) := by
  simp [frameByte, hm]

/-- Byte `k` of 40 bits shifted in, its most significant bit first. -/
theorem getLsbD_frameByte_shiftOf {bits : List Bool} {k m : Nat} (hlen : bits.length = 40) (hk : k < 5)
    (hm : m < 8) : (frameByte k (shiftOf bits)).getLsbD (7 - m) = bits.getD (8 * k + m) false := by
  rw [getLsbD_frameByte k _ (by omega), ← getLsbD_shiftOf_received hlen (by omega)]
  congr 1
  omega

/-- Settles O27: the latest bit is at bit 0, and a byte is a slice. -/
theorem byteAssemblerKeepsReceivedOrder : Obligations.ByteAssemblerKeepsReceivedOrder :=
  ⟨fun s k _ _ hm => getLsbD_frameByte k s hm, fun _ _ => getLsbD_shiftOf_received,
    fun _ _ _ => getLsbD_frameByte_shiftOf⟩

/-! ### The checksum (R164, R165) -/

theorem checksumOk_iff_toNat (s : BitVec 40) : checksumOk s = true ↔ (frameByte 4 s).toNat =
    ((frameByte 0 s).toNat + (frameByte 1 s).toNat + (frameByte 2 s).toNat + (frameByte 3 s).toNat) % 256 :=
  decide_eq_true_iff

theorem checksumOk_iff (s : BitVec 40) : checksumOk s = true ↔
    frameByte 4 s = frameByte 0 s + frameByte 1 s + frameByte 2 s + frameByte 3 s := by
  rw [checksumOk_iff_toNat, ← BitVec.toNat_inj]
  simp

/-- The bytes of a register put together from five. -/
theorem frameByte_append (a b c d e : Byte) :
    frameByte 0 (a ++ b ++ c ++ d ++ e) = a ∧ frameByte 1 (a ++ b ++ c ++ d ++ e) = b ∧
    frameByte 2 (a ++ b ++ c ++ d ++ e) = c ∧ frameByte 3 (a ++ b ++ c ++ d ++ e) = d ∧
    frameByte 4 (a ++ b ++ c ++ d ++ e) = e := by
  refine ⟨?_, ?_, ?_, ?_, ?_⟩ <;> refine BitVec.eq_of_getLsbD_eq fun m hm => ?_
  all_goals
    rw [getLsbD_frameByte _ _ hm]
    grind

theorem checksumOk_append (a b c d e : Byte) :
    checksumOk (a ++ b ++ c ++ d ++ e) = true ↔ e = a + b + c + d := by
  obtain ⟨ha, hb, hc, hd, he⟩ := frameByte_append a b c d e
  rw [checksumOk_iff, ha, hb, hc, hd, he]

/-- In a frame that passes, each byte is determined by the other four. -/
theorem frameByte_eq_of_checksumOk {s t : BitVec 40} {k : Nat} (hk : k < 5) (hs : checksumOk s = true)
    (ht : checksumOk t = true) (hother : ∀ j < 5, j ≠ k → frameByte j s = frameByte j t) :
    frameByte k s = frameByte k t := by
  rw [checksumOk_iff] at hs ht
  interval_cases k <;> grind

section
variable (s : BitVec 40) {m : Nat} (hm : m < 40)
include hm

theorem getLsbD_flip (i : Nat) : (s ^^^ (1#40 <<< m)).getLsbD i = (s.getLsbD i ^^ decide (i = m)) := by
  rw [BitVec.getLsbD_xor, ← BitVec.twoPow_eq, BitVec.getLsbD_twoPow, decide_eq_true hm, Bool.true_and]
  simp only [eq_comm]

/-- Bit `m` is a bit of byte `4 - m / 8`, and no other byte sees it flipped. -/
theorem frameByte_flip_other {j : Nat} (hj : j < 5) (hne : j ≠ 4 - m / 8) :
    frameByte j (s ^^^ (1#40 <<< m)) = frameByte j s := by
  refine BitVec.eq_of_getLsbD_eq fun i hi => ?_
  have himm : 32 - 8 * j + i ≠ m := by omega
  rw [getLsbD_frameByte _ _ hi, getLsbD_frameByte _ _ hi, getLsbD_flip s hm, decide_eq_false himm, Bool.xor_false]

theorem frameByte_flip_own : frameByte (4 - m / 8) (s ^^^ (1#40 <<< m)) ≠ frameByte (4 - m / 8) s := by
  intro heq
  have hat (r : BitVec 40) : (frameByte (4 - m / 8) r).getLsbD (m % 8) = r.getLsbD m := by
    rw [getLsbD_frameByte _ _ (by omega)]
    congr 1
    omega
  have hbit : (s ^^^ (1#40 <<< m)).getLsbD m = s.getLsbD m := by rw [← hat, heq, hat]
  rw [getLsbD_flip s hm] at hbit
  simp at hbit

end

/-- Settles O28: two passing frames do not differ in one byte alone, and a flip of one bit changes one byte. -/
theorem checksumAcceptsAndRejects : Obligations.ChecksumAcceptsAndRejects := by
  refine ⟨fun a b c d e => ?sum, fun a b c d => (checksumOk_append ..).mpr rfl, fun s m hm hs => ?flip⟩
  case sum =>
    rw [checksumOk_append, ← BitVec.toNat_inj]
    simp
  case flip =>
    by_contra hpass
    rw [Bool.not_eq_false] at hpass
    exact frameByte_flip_own s hm <|
      frameByte_eq_of_checksumOk (by omega) hpass hs fun j hj hne => frameByte_flip_other s hm hj hne

/-! ### `Decode` of a trace (R168 to R171) -/

/-- A byte is the sum of its bits, the first most significant (R168). -/
theorem toNat_eq_sum_bits (b : Byte) :
    b.toNat = ((List.range 8).map fun j => (b.getLsbD (7 - j)).toNat * 2 ^ (7 - j)).sum := by
  have hmod : b.toNat = b.toNat % 2 ^ 8 := (Nat.mod_eq_of_lt b.isLt).symm
  rw [hmod]
  simp only [BitVec.getLsbD, Nat.toNat_testBit, List.range_succ, List.range_zero, List.nil_append, List.cons_append,
    List.map_cons, List.map_nil, List.sum_cons, List.sum_nil]
  omega

/-- Byte `k` of `Decode`'s list is byte `k` of the register its 40 bits are shifted into. -/
theorem byteOfBits_eq {bits : List Bool} {k : Nat} (hlen : bits.length = 40) (hk : k < 5) :
    byteOfBits bits k = (frameByte k (shiftOf bits)).toNat := by
  rw [toNat_eq_sum_bits, byteOfBits]
  congr 1
  refine List.map_congr_left fun j hj => ?_
  rw [getLsbD_frameByte_shiftOf hlen hk (List.mem_range.mp hj)]

theorem decodeTrace_of_length_lt {t : List Observation} (hlen : (frameBitsOf t).length < 40) :
    decodeTrace t = .incompleteFrame :=
  if_pos hlen

/-- `Decode` of a whole frame, read off the register that the bits are shifted into. -/
theorem decodeTrace_of_length_eq {t : List Observation} (hlen : (frameBitsOf t).length = 40) :
    decodeTrace t =
      let s := shiftOf (frameBitsOf t)
      if checksumOk s then .success (frameByte 0 s) (frameByte 1 s) (frameByte 2 s) (frameByte 3 s)
      else .checksumMismatch := by
  have hbyte (k : Nat) (hk : k < 5) := byteOfBits_eq hlen hk
  have hroom : ¬ (frameBitsOf t).length < frameBits := by rw [hlen]; decide
  simp only [decodeTrace, if_neg hroom, hbyte, Nat.reduceLT, BitVec.ofNat_toNat, BitVec.setWidth_eq,
    checksumOk_iff_toNat]

/-- Only the durations at considered indices matter. -/
theorem consideredBits_congr (i : Nat) {t u : List Observation} (hlen : t.length = u.length)
    (hdur : ∀ j (h : j < t.length) (h' : j < u.length), considered (i + j) = true →
      t[j].durationTicks = u[j].durationTicks) : consideredBits i t = consideredBits i u := by
  induction t generalizing i u with
  | nil => rw [List.length_eq_zero_iff.mp hlen.symm]
  | cons e t ih =>
    obtain ⟨f, u, rfl⟩ := List.exists_cons_of_length_eq_add_one hlen.symm
    have hrest : consideredBits (i + 1) t = consideredBits (i + 1) u := by
      refine ih (i + 1) (Nat.succ.inj hlen) fun j h h' hc => ?_
      exact hdur (j + 1) (Nat.succ_lt_succ h) (Nat.succ_lt_succ h') (by rwa [Nat.add_right_comm] at hc)
    simp only [consideredBits, hrest]
    split
    next hc =>
      have hhead : e.durationTicks = f.durationTicks := hdur 0 (Nat.zero_lt_succ _) (Nat.zero_lt_succ _) hc
      rw [hhead]
    · rfl

/-- `Decode` reads nothing of a trace but its bits. -/
theorem decodeTrace_congr {t u : List Observation} (h : frameBitsOf t = frameBitsOf u) :
    decodeTrace t = decodeTrace u := by
  rw [decodeTrace, decodeTrace, h]

/-- The register that all 40 bits of `s` are shifted into, bit 39 first, is `s`. -/
theorem shiftOf_bits (s : BitVec 40) : shiftOf ((List.range 40).map fun j => s.getLsbD (39 - j)) = s := by
  refine BitVec.eq_of_getLsbD_eq fun i hi => ?_
  have hj : 39 - (39 - i) = i := by omega
  rw [← hj, getLsbD_shiftOf_received (by simp) (by omega)]
  simp [List.getD_eq_getElem?_getD, show 39 - i < 40 by omega]

/-- A trace whose bits are those of five bytes. -/
theorem decodeTrace_of_bytes {t : List Observation} {a b c d e : Byte}
    (h : frameBitsOf t = (List.range 40).map fun j => (a ++ b ++ c ++ d ++ e).getLsbD (39 - j)) :
    decodeTrace t = if e = a + b + c + d then .success a b c d else .checksumMismatch := by
  obtain ⟨ha, hb, hc, hd, -⟩ := frameByte_append a b c d e
  have hlen : (frameBitsOf t).length = 40 := by simp [h]
  rw [decodeTrace_of_length_eq hlen, h, shiftOf_bits]
  simp only [checksumOk_append, ha, hb, hc, hd]

/-- Settles O29: `Decode` is a function of the bits, and the bits of the considered durations. -/
theorem decodeFunctionLaws : Obligations.DecodeFunctionLaws := by
  refine ⟨fun t u hlen hdur => ?_, ⟨rfl, rfl⟩, fun t hfew => ?_, fun _ _ _ _ _ _ => decodeTrace_of_bytes⟩
  · refine decodeTrace_congr (congrArg (List.take frameBits) (consideredBits_congr 0 hlen fun i h h' hc => ?_))
    rw [Nat.zero_add, considered_iff] at hc
    obtain ⟨h4, heven⟩ := hc
    exact hdur i h h' h4 heven
  · exact decodeTrace_of_length_lt (by rw [length_frameBitsOf]; omega)

/-- Entries after the 40th bit change nothing. -/
theorem frameBitsOf_append {t : List Observation} (hfull : 40 ≤ consideredBelow t.length) (u : List Observation) :
    frameBitsOf (t ++ u) = frameBitsOf t := by
  unfold frameBitsOf
  rw [consideredBits_append, List.take_append_of_le_length (by rwa [length_consideredBits_zero])]

/-- Settles O30: a count of the considered indices; in the validation cycle DI is TLEN. -/
theorem bitCountFollowsFromTraceLength : Obligations.BitCountFollowsFromTraceLength := by
  refine ⟨consideredBelow_eq, fun s hinv hs hdi => ?_, fun t hle => ?_, fun t hge _ => ?_⟩
  · rw [← hdi, ← consideredBelow_eq]
    obtain ⟨hnbits, -⟩ := hinv.decoded hs
    exact hnbits
  · refine decodeTrace_of_length_lt ?_
    rw [length_frameBitsOf, consideredBelow_eq]
    omega
  · have hbits : frameBitsOf t = frameBitsOf (t.take 83) := by
      conv_lhs => rw [← List.take_append_drop 83 t]
      refine frameBitsOf_append ?_ _
      rw [List.length_take_of_le hge]
      decide
    refine ⟨?_, decodeTrace_congr hbits⟩
    rw [length_frameBitsOf, consideredBelow_eq]
    omega

/-! ### The rules of the Frame Decoder (R161, R162, R166, R167, R175) -/

/-- The new bit enters at bit 0 of the register moved up. -/
theorem shiftIn_eq (s : BitVec 40) (b : Bool) : shiftIn s b = s <<< 1 ||| if b then 1#40 else 0#40 := by
  refine BitVec.eq_of_getLsbD_eq fun i hi => ?_
  rw [getLsbD_shiftIn, BitVec.getLsbD_or, BitVec.getLsbD_shiftLeft]
  cases i with
  | zero => cases b <;> simp
  | succ i =>
    have hlt : i < 39 := by omega
    cases b <;> simp [hlt, hi]

theorem afterEntry_of_bit {s : State} (hc : considered s.di.toNat = true) (hn : s.nbits.toNat < 40) :
    afterEntry s = (s.appendBit (classify (Memory.read s.trace s.di.toNat).durationTicks)).nextEntry :=
  if_pos ⟨hc, hn⟩

theorem afterEntry_of_skip {s : State} (h : ¬ (considered s.di.toNat = true ∧ s.nbits.toNat < 40)) :
    afterEntry s = s.nextEntry :=
  if_neg h

/-- Settles O17: an entry that carries a bit is shifted in while there is room, any other is passed over. -/
theorem decodeEntryShiftsInConsideredBits : Obligations.DecodeEntryShiftsInConsideredBits := by
  refine ⟨fun w => rowOf_eq_some_iff w .decodeEntry,
    fun s => (rowOf_dispatchWord_iff s .decodeEntry).trans and_left_comm, fun s t u k hlt => ?_⟩
  have hexec : exec (.decodeEntry t u k) s = .next (afterEntry s) := execDecodeEntry_of_lt hlt
  rw [hexec]
  refine ⟨fun h4 heven hroom => ?bit, fun hskip => ?skip⟩
  case bit =>
    rw [afterEntry_of_bit ((considered_iff _).mpr ⟨h4, heven⟩) hroom, State.appendBit, shiftIn_eq]
    simp only [classify_iff]
    rfl
  case skip =>
    rw [afterEntry_of_skip (by rw [considered_iff]; omega)]
    rfl

section
variable {s : State}

theorem execValidate_of_few (hfew : s.nbits.toNat < 40) :
    execValidate s = .next (s.publishFailure .incompleteFrame) := by
  rw [execValidate, validationOutcome, frameBits_eq, if_pos hfew]

theorem execValidate_of_pass (hfull : 40 ≤ s.nbits.toNat) (hc : checksumOk s.shift = true) :
    execValidate s = .next s.publishSuccess := by
  rw [execValidate, validationOutcome, frameBits_eq, if_neg (Nat.not_lt.mpr hfull), if_pos hc]

theorem execValidate_of_mismatch (hfull : 40 ≤ s.nbits.toNat) (hc : ¬ checksumOk s.shift = true) :
    execValidate s = .next (s.publishFailure .checksumMismatch) := by
  rw [execValidate, validationOutcome, frameBits_eq, if_neg (Nat.not_lt.mpr hfull), if_neg hc]

end

/-- Settles O18: the number of bits decides first, then the sum, which modulo 256 is a sum of bytes. -/
theorem validateWritesTheOutcome : Obligations.ValidateWritesTheOutcome := by
  refine ⟨fun w => rowOf_eq_some_iff w .validate,
    fun s => (rowOf_dispatchWord_iff s .validate).trans and_left_comm, fun s t u k => ?_⟩
  have hsum := checksumOk_iff s.shift
  exact ⟨execValidate_of_few, fun hfull heq => execValidate_of_pass hfull (hsum.mpr heq),
    fun hfull hne => execValidate_of_mismatch hfull (mt hsum.mp hne)⟩

/-- Settles O19: in the done states the outcome is the one that the invariant has go with them. -/
theorem doneAndReservedStatesReturnToIdle : Obligations.DoneAndReservedStatesReturnToIdle := by
  refine ⟨fun w => ?words, fun s => ?runs, fun s t u k c => ⟨rfl, rfl, rfl⟩, fun s => ?ports, fun s hinv => ?outcomes⟩
  case words =>
    exact ⟨rowOf_eq_some_iff w .successDone, rowOf_eq_some_iff w .failureDone, rowOf_eq_some_iff w .unusedState⟩
  case runs =>
    exact ⟨(rowOf_dispatchWord_iff s .successDone).trans and_comm,
      (rowOf_dispatchWord_iff s .failureDone).trans and_comm,
      (rowOf_dispatchWord_iff s .unusedState).trans and_comm⟩
  case ports =>
    refine ⟨fun hs => ⟨(done_iff s).mpr hs, (busy_iff s).mpr ?_⟩, fun hs => ?_⟩
    · rcases hs with hs | hs <;> simp [hs]
    · simp [busy, done, lineOe, hs]
  case outcomes =>
    refine ⟨fun hs => congrArg outcomeCode (hinv.done_success hs), fun hs => ?_⟩
    have hfail := hinv.done_failure hs
    refine ⟨hfail.imp (congrArg outcomeCode) (congrArg outcomeCode), hinv.no_reading ?_⟩
    rcases hfail with ho | ho <;> simp [ho]

/-! ### The result registers (R173) -/

@[simp] theorem resultOf_clockInputs (s : State) : resultOf s.clockInputs = resultOf s := by
  simp [resultOf]

theorem resultOf_handshakeTick (n : Nat) (after : AttemptState) (s : State) :
    resultOf (handshakeTick n after s) = resultOf s := by
  unfold handshakeTick
  split <;> rfl

/-- A rule other than RESET and VALIDATE writes no result register. -/
theorem rowMeaning_resultOf {r : Row} {s t : State} (hreset : r ≠ .reset) (hvalidate : r ≠ .validate)
    (h : rowMeaning r s = .next t) : resultOf t = resultOf s := by
  cases r with
  | reset => exact absurd rfl hreset
  | validate => exact absurd rfl hvalidate
  | attemptRead | idleWait | hsLowWait | hsHighWait | sampleWait | successDone | failureDone | unusedState =>
    cases h
    rfl
  | hsLowTick | hsHighTick =>
    cases h
    exact resultOf_handshakeTick ..
  | sampleSame =>
    by_cases hc : s.cnt.toNat = 254
    · rw [rowMeaning, execSampleSame_last hc] at h
      cases h
      rfl
    · rw [rowMeaning, execSampleSame_count hc] at h
      cases h
      rfl
  | sampleChange =>
    obtain ⟨-, rfl⟩ := withTraceIndex_eq_next h
    split <;> rfl
  | decodeEntry =>
    obtain ⟨-, rfl⟩ := withTraceIndex_eq_next h
    split <;> rfl

/-- No Reading is shown. -/
def NoReading (s : State) : Prop :=
  s.humInt = 0 ∧ s.humFrac = 0 ∧ s.tempInt = 0 ∧ s.tempFrac = 0 ∧ s.capturedAt = 0

/-- A validation that does not succeed clears the Reading. -/
theorem execValidate_noReading {s t : State} (h : execValidate s = .next t) (hfail : t.outcome ≠ .success) :
    NoReading t := by
  rcases execValidate_cases s with ⟨-, hv⟩ | ⟨-, -, hv⟩ | ⟨-, -, hv⟩
  all_goals
    rw [hv] at h
    cases h
  · exact ⟨rfl, rfl, rfl, rfl, rfl⟩
  · exact absurd rfl hfail
  · exact ⟨rfl, rfl, rfl, rfl, rfl⟩

/-- Settles O23: RESET and VALIDATE alone write the result registers, and both clear the Reading without a success. -/
theorem resultsChangeOnlyInValidationOrReset : Obligations.ResultsChangeOnlyInValidationOrReset := by
  intro s t h
  obtain ⟨u, hu, rfl⟩ := step_inv h
  have hcond := rowCondition_cycleRow s
  simp only [resultOf_clockInputs, State.clockInputs_outcome, State.clockInputs_humInt, State.clockInputs_humFrac,
    State.clockInputs_tempInt, State.clockInputs_tempFrac, State.clockInputs_capturedAt]
  refine ⟨fun hr hd => rowMeaning_resultOf (fun hrow => ?_) (fun hrow => ?_) hu, fun hchange hfail => ?_⟩
  · rw [hrow] at hcond
    exact absurd hcond (by simp [RowCondition, hr])
  · rw [hrow] at hcond
    exact hd hcond.2
  · by_cases hreset : cycleRow s = .reset
    · rw [hreset] at hu
      cases hu
      exact ⟨rfl, rfl, rfl, rfl, rfl⟩
    · by_cases hvalidate : cycleRow s = .validate
      · rw [hvalidate] at hu
        exact execValidate_noReading hu hfail
      · exact absurd (rowMeaning_resultOf hreset hvalidate hu) hchange

/-! ### A stretch of DECODING (R169, R176) -/

/-- Of the registers that a stretch of DECODING reads, DECODE_ENTRY writes DI, NBITS and SHIFT alone. -/
theorem afterEntry_frame (s : State) : (afterEntry s).state = s.state ∧ (afterEntry s).di = s.di + 1#7 ∧
    (afterEntry s).tlen = s.tlen ∧ (afterEntry s).trace = s.trace ∧ (afterEntry s).sat = s.sat := by
  unfold afterEntry
  split <;> exact ⟨rfl, rfl, rfl, rfl, rfl⟩

/-- NBITS and SHIFT are those of the entries below DI (R169). -/
def BitsDecoded (s : State) : Prop :=
  s.nbits.toNat = min 40 (consideredBelow s.di.toNat) ∧
    s.shift = shiftOf (frameBitsOf ((pulseTrace s).take s.di.toNat))

theorem pulseTrace_congr {s t : State} (htlen : t.tlen = s.tlen) (htrace : t.trace = s.trace) :
    pulseTrace t = pulseTrace s := by
  rw [pulseTrace, pulseTrace, htlen, htrace]

theorem take_succ_pulseTrace {s : State} {i : Nat} (hi : i < s.tlen.toNat) :
    (pulseTrace s).take (i + 1) = (pulseTrace s).take i ++ [Memory.read s.trace i] := by
  rw [List.take_succ_eq_append_getElem (by rwa [length_pulseTrace])]
  simp [pulseTrace]

/-- DECODE_ENTRY takes the bits on by one entry. -/
theorem BitsDecoded.afterEntry {s : State} (h : BitsDecoded s) (hdi : s.di.toNat < s.tlen.toNat) :
    BitsDecoded (afterEntry s) := by
  obtain ⟨hnbits, hshift⟩ := h
  obtain ⟨-, hnext, htlen, htrace, -⟩ := afterEntry_frame s
  have hlen : ((pulseTrace s).take s.di.toNat).length = s.di.toNat := by
    rw [List.length_take_of_le (by rw [length_pulseTrace]; omega)]
  rw [BitsDecoded, pulseTrace_congr htlen htrace, hnext, toNat_succ7 (by omega), consideredBelow_succ,
    take_succ_pulseTrace hdi, frameBitsOf_concat, hlen]
  by_cases hc : considered s.di.toNat = true
  · by_cases hroom : consideredBelow s.di.toNat < 40
    · have hn : s.nbits.toNat < 40 := by omega
      rw [afterEntry_of_bit hc hn, if_pos hc, if_pos ⟨hc, hroom⟩, shiftOf_concat, ← hshift]
      refine ⟨?_, rfl⟩
      rw [State.nextEntry_nbits, State.appendBit_nbits, toNat_succ6 (by omega)]
      omega
    · rw [afterEntry_of_skip (by omega), if_pos hc, if_neg (by tauto)]
      exact ⟨by rw [State.nextEntry_nbits]; omega, hshift⟩
  · rw [afterEntry_of_skip (by tauto), if_neg hc, if_neg (by tauto)]
    exact ⟨hnbits, hshift⟩

/-- The state `t` is in the DECODING stretch of the state `s`, at entry `k`. -/
structure DecodingAt (s : State) (k : Nat) (t : State) : Prop where
  state : t.state = .decoding
  di : t.di.toNat = k
  tlen : t.tlen = s.tlen
  trace : t.trace = s.trace
  sat : t.sat = s.sat
  bits : BitsDecoded s → BitsDecoded t

theorem DecodingAt.clockInputs {s t : State} {k : Nat} (h : DecodingAt s k t) : DecodingAt s k t.clockInputs := by
  unfold State.clockInputs
  cases t.stimulus <;> exact { h with }

/-- A cycle before the last of the stretch is a DECODE_ENTRY. -/
theorem DecodingAt.next {s t : State} {k : Nat} (h : DecodingAt s k t) (hk : k < s.tlen.toNat)
    (htlen : s.tlen.toNat ≤ 85) (hrst : t.inputs.rst = false) :
    ∃ u, rowMeaning (cycleRow t) t = .next u ∧ DecodingAt s (k + 1) u := by
  have hlt : t.di.toNat < t.tlen.toNat := by rwa [h.di, h.tlen]
  have hrow : cycleRow t = .decodeEntry :=
    cycleRow_eq_of_condition ⟨hrst, h.state, fun heq => hlt.ne (congrArg BitVec.toNat heq)⟩
  obtain ⟨hstate, hdi, htl, htr, hsat⟩ := afterEntry_frame t
  refine ⟨afterEntry t, ?_, ?_⟩
  · rw [hrow]
    exact execDecodeEntry_of_lt (by rw [h.di]; omega)
  · exact {
      state := hstate.trans h.state
      di := by rw [hdi, toNat_succ7 (by rw [h.di]; omega), h.di]
      tlen := htl.trans h.tlen
      trace := htr.trans h.trace
      sat := hsat.trans h.sat
      bits := fun hb => (h.bits hb).afterEntry hlt }

/-- The stretch of DECODING is at entry `k` after `k` cycles, up to TLEN. -/
theorem run_decodingAt {s : State} {xs : List Inputs} {k : Nat} (hs : s.state = .decoding) (hdi : s.di = 0)
    (htlen : s.tlen.toNat ≤ 85) (hf : Feeds s xs) (hn : NoReset xs) (hk : k ≤ s.tlen.toNat) (hlen : k ≤ xs.length) :
    ∃ t, run k s = .next t ∧ DecodingAt s k t ∧ Feeds t (xs.drop k) := by
  have h0 : DecodingAt s 0 s := ⟨hs, by rw [hdi]; rfl, rfl, rfl, rfl, id⟩
  have hcut : Feeds s (xs.take k ++ xs.drop k) := by rwa [List.take_append_drop]
  have hrun := run_induct (P := DecodingAt s) hcut h0 fun i u x hx hux hu => by
    obtain ⟨hi, -⟩ := List.getElem?_eq_some_iff.mp hx
    have hrst : u.inputs.rst = false := by
      rw [hux]
      exact hn x (List.mem_of_mem_take (List.mem_of_getElem? hx))
    obtain ⟨v, hv, hnext⟩ := hu.next (by rw [List.length_take_of_le hlen] at hi; omega) htlen hrst
    exact ⟨v, hv, hnext.clockInputs⟩
  rwa [List.length_take_of_le hlen] at hrun

/-- After TLEN cycles comes the validation cycle. -/
theorem run_validation {s : State} {xs : List Inputs} (hs : s.state = .decoding) (hdi : s.di = 0)
    (htlen : s.tlen.toNat ≤ 85) (hf : Feeds s xs) (hn : NoReset xs) (hlen : s.tlen.toNat < xs.length) :
    ∃ t, run s.tlen.toNat s = .next t ∧ DecodingAt s s.tlen.toNat t ∧ RowCondition t .validate := by
  obtain ⟨t, ht, hat, hft⟩ := run_decodingAt hs hdi htlen hf hn le_rfl hlen.le
  rw [List.drop_eq_getElem_cons hlen] at hft
  have hrst : t.inputs.rst = false := by
    rw [hft.head]
    exact hn _ (List.getElem_mem hlen)
  exact ⟨t, ht, hat, hrst, hat.state, BitVec.eq_of_toNat_eq (by rw [hat.di, hat.tlen])⟩

theorem exists_step_of_done {s : State} (hd : done s = true) : ∃ t, step s = .next t := by
  cases hr : s.inputs.rst with
  | true => exact ⟨_, step_of_rst hr⟩
  | false =>
    rcases (done_iff s).mp hd with hs | hs
    · exact ⟨_, step_of_condition (r := .successDone) ⟨hr, hs⟩⟩
    · exact ⟨_, step_of_condition (r := .failureDone) ⟨hr, hs⟩⟩

/-- VALIDATE is followed by a done cycle. -/
theorem step_of_validate {s : State} (h : RowCondition s .validate) : ∃ t, step s = .next t ∧ done t = true := by
  obtain ⟨u, hu⟩ := rowMeaning_next s (r := .validate) nofun nofun
  refine ⟨u.clockInputs, by rw [step_of_condition h, hu]; rfl, ?_⟩
  rw [done_iff, State.clockInputs_state]
  exact execValidate_state hu

/-- Settles O39: each DECODE_ENTRY takes DI on by one, at TLEN comes VALIDATE, and the done cycle goes to IDLE. -/
theorem decodingTakesTlenPlusOneCycles : Obligations.DecodingTakesTlenPlusOneCycles := by
  intro s xs hs hdi htlen hf hn hlen
  obtain ⟨v, hv, -, hvalidate⟩ := run_validation hs hdi htlen hf hn (by omega)
  obtain ⟨d, hd, hdone⟩ := step_of_validate hvalidate
  obtain ⟨t, ht⟩ := exists_step_of_done hdone
  have hrun : run (s.tlen.toNat + 1) s = .next d := (run_succ_last hv).trans hd
  refine ⟨fun k hk => ?_, ⟨d, hrun, hdone⟩, ⟨t, (run_succ_last hrun).trans ht, step_of_done hdone ht⟩⟩
  obtain ⟨u, hu, hat, -⟩ := run_decodingAt hs hdi htlen hf hn hk (by omega)
  exact ⟨u, hu, hat.state, hat.di⟩

/-- In the validation cycle the bits are those of the whole trace. -/
theorem BitsDecoded.of_di_eq_tlen {s : State} (h : BitsDecoded s) (hdi : s.di = s.tlen) :
    s.nbits.toNat = (frameBitsOf (pulseTrace s)).length ∧ s.shift = shiftOf (frameBitsOf (pulseTrace s)) := by
  obtain ⟨hnbits, hshift⟩ := h
  rw [hdi, List.take_of_length_le (by rw [length_pulseTrace])] at hshift
  rw [length_frameBitsOf, length_pulseTrace, ← hdi]
  exact ⟨hnbits, hshift⟩

/-- VALIDATE leaves the result of `Decode` (R169): both test the number of bits first, and then the same sum. -/
theorem execValidate_of_bitsDecoded {s : State} (h : BitsDecoded s) (hdi : s.di = s.tlen) :
    ∃ t, execValidate s = .next t ∧
      resultOf t = resultFor (decodeTrace (pulseTrace s)) s.sat s.inputs.wallclock ∧
      t.state = if (decodeTrace (pulseTrace s)).outcome = .success then .success else .failure := by
  obtain ⟨hnbits, hshift⟩ := h.of_di_eq_tlen hdi
  have hmax : (frameBitsOf (pulseTrace s)).length ≤ 40 := by
    rw [length_frameBitsOf]
    exact Nat.min_le_left ..
  rcases execValidate_cases s with ⟨hn, hv⟩ | ⟨hn, hc, hv⟩ | ⟨hn, hc, hv⟩ <;> refine ⟨_, hv, ?_⟩
  · rw [decodeTrace_of_length_lt (by omega)]
    exact ⟨rfl, rfl⟩
  all_goals
    rw [decodeTrace_of_length_eq (by omega), ← hshift]
    simp only [hc]
    exact ⟨rfl, rfl⟩

/-- Settles O40: DECODE_ENTRY keeps `BitsDecoded`, and with it VALIDATE leaves the result of `Decode`. -/
theorem hardwareComputesDecode : Obligations.HardwareComputesDecode := by
  intro s xs hs hdi hnbits hshift htlen hf hn hlen
  have h0 : BitsDecoded s := by
    rw [BitsDecoded, hdi, hnbits, hshift]
    exact ⟨rfl, rfl⟩
  obtain ⟨v, hv, hat, hvalidate⟩ := run_validation hs hdi htlen hf hn (by omega)
  have ⟨_, _, hvdi⟩ := hvalidate
  have htrace : pulseTrace v = pulseTrace s := pulseTrace_congr hat.tlen hat.trace
  obtain ⟨hbits, hreg⟩ := (hat.bits h0).of_di_eq_tlen hvdi
  obtain ⟨t, ht, hresult, hstate⟩ := execValidate_of_bitsDecoded (hat.bits h0) hvdi
  rw [htrace] at hbits hreg hresult hstate
  rw [hat.sat] at hresult
  refine ⟨v, t.clockInputs, hv, hvdi, ?nbits, fun h40 j hj => ?shift, ?run, ?result, ?state⟩
  case nbits => rw [hbits, length_frameBitsOf, length_pulseTrace, consideredBelow]
  case shift => rw [hreg, getLsbD_shiftOf_received (hbits.symm.trans h40) hj]
  case run =>
    rw [run_succ_last hv, step_of_condition hvalidate]
    exact congrArg clockEdge ht
  case result => rw [resultOf_clockInputs, hresult]
  case state => rw [State.clockInputs_state, hstate]

end Sys2Proof.Machine

/-! SUPPORT. Proofs of the family 60_exceptions: how simultaneous conditions are resolved. -/

namespace Sys2Proof.Machine

/-! ### Which inputs select the row (R206, points 1 and 2) -/

/-- Cycles that agree on the inputs named in their state run the same row. -/
theorem rowOf_dispatchWord_withInputs {s : State} {x : Inputs} (ha : AgreesWhereNamed s x) :
    rowOf (dispatchWord (s.withInputs x)) = rowOf (dispatchWord s) := by
  have hrow : cycleRow (s.withInputs x) = cycleRow s :=
    cycleRow_eq_of_condition ((rowCondition_cycleRow s).withInputs ha)
  rw [rowOf_dispatchWord, rowOf_dispatchWord, hrow]

/-- Outside IDLE no rule names `start`. -/
theorem agreesWhereNamed_start {s : State} (hs : s.state ≠ .idle) (b : Bool) :
    AgreesWhereNamed s { s.inputs with start := b } where
  rst := rfl
  start := fun _ h => absurd h hs
  usTick := fun _ _ => rfl
  sampleTick := fun _ _ => rfl
  lineIn := fun _ _ _ => rfl
  wallclock := fun _ _ _ => rfl

/-- In IDLE the rules name no input but `rst` and `start`. -/
theorem agreesWhereNamed_of_idle {s : State} {x : Inputs} (hs : s.state = .idle)
    (hrst : x.rst = s.inputs.rst) (hstart : x.start = s.inputs.start) : AgreesWhereNamed s x where
  rst := hrst
  start := fun _ _ => hstart
  usTick := by simp [hs]
  sampleTick := by simp [hs]
  lineIn := by simp [hs]
  wallclock := by simp [hs]

/-! ### One sample, one effect (R206, point 3) -/

/-- A cycle of SAMPLING either keeps TLEN, so that it records nothing, or keeps SAT, so that it does not saturate. -/
theorem step_sampling_tlen_or_sat {s t : State} (hr : s.inputs.rst = false) (hs : s.state = .sampling)
    (h : step s = .next t) : t.tlen = s.tlen ∨ t.sat = s.sat := by
  rcases step_sampling_cases hr hs h with ⟨-, rfl⟩ | ⟨-, -, -, rfl⟩ | ⟨-, -, -, rfl⟩ | ⟨-, -, -, rfl⟩
  case inr.inr.inr =>
    right
    rw [State.clockInputs_sat, afterChange_eq]
  all_goals
    left
    exact State.clockInputs_tlen _

/-! ### What a validation records (R206, points 4 and 5) -/

/-- TIMEOUT is SAT, and the outcome is decided by NBITS and SHIFT alone. -/
theorem execValidate_timeout_outcome {s u : State} (h : execValidate s = .next u) :
    u.timeout = s.sat ∧ u.outcome = validationOutcome s.nbits s.shift := by
  unfold execValidate at h
  split at h
  next ho =>
    cases h
    exact ⟨rfl, ho.symm⟩
  next =>
    cases h
    exact ⟨rfl, rfl⟩

/-- The bit count comes before the checksum. -/
theorem validationOutcome_of_few {n : BitVec 6} (hfew : n.toNat < 40) (shift : BitVec 40) :
    validationOutcome n shift = .incompleteFrame :=
  if_pos hfew

/-- Settles O25: the row depends on the named inputs alone, a sample is a change or not, and a validation records
SAT and the outcome separately. -/
theorem simultaneousConditionsAreResolved : Obligations.SimultaneousConditionsAreResolved := by
  refine ⟨fun s => (rowOf_dispatchWord_iff s .reset).mpr,
    fun s b hs => rowOf_dispatchWord_withInputs (agreesWhereNamed_start hs b),
    fun s x hs hrst hstart => rowOf_dispatchWord_withInputs (agreesWhereNamed_of_idle hs hrst hstart),
    fun s t hs hr h => ?oneEffect, fun s u a b c hfew h => ?bitCountFirst, fun s u v a b c hu hv => ?separate⟩
  case oneEffect =>
    rintro ⟨-, hsat', hsat, htlen', htlen⟩
    rcases step_sampling_tlen_or_sat hr hs h with hkeep | hkeep
    · rw [hkeep, htlen] at htlen'
      exact absurd htlen' (by decide)
    · rw [hkeep, hsat] at hsat'
      exact absurd hsat' (by decide)
  case bitCountFirst =>
    exact (execValidate_timeout_outcome h).2.trans (validationOutcome_of_few hfew _)
  case separate =>
    obtain ⟨htimeout, houtcome⟩ := execValidate_timeout_outcome hu
    obtain ⟨htimeout', houtcome'⟩ := execValidate_timeout_outcome hv
    exact ⟨htimeout, htimeout', houtcome.trans houtcome'.symm⟩

end Sys2Proof.Machine

/-! SUPPORT. Proofs of the family 70_reset_and_hazards: the RESET row, where `start` is read, and the cycles that an
attempt takes under configuration T1. -/

namespace Sys2Proof.Machine

/-! ### RESET (R240) -/

/-- Settles O20: the effect is that of `State.resetRegisters`. -/
theorem resetSetsEveryRegisterButTrace : Obligations.ResetSetsEveryRegisterButTrace :=
  ⟨fun w => rowOf_eq_some_iff w .reset, fun s => rowOf_dispatchWord_iff s .reset, fun _ _ _ _ _ _ => rfl⟩

/-! ### Where `start` is read (R245) -/

theorem step_of_start {s : State} (hs : s.state = .idle) (hr : s.inputs.rst = false)
    (hstart : s.inputs.start = true) : step s = .next s.beginAttempt.clockInputs :=
  step_of_condition (r := .attemptRead) ⟨hr, hs, hstart⟩

theorem step_of_idle {s : State} (hs : s.state = .idle) (hr : s.inputs.rst = false) :
    ∃ t, step s = .next t ∧ t.state = if s.inputs.start then .hsLow else .idle := by
  cases hstart : s.inputs.start with
  | true => exact ⟨_, step_of_start hs hr hstart, State.clockInputs_state _⟩
  | false =>
    exact ⟨_, step_of_condition (r := .idleWait) ⟨hr, hs, hstart⟩, (State.clockInputs_state s).trans hs⟩

/-- Settles O41: outside IDLE no rule names `start`; the cycle after a done cycle is an IDLE one, which reads it. -/
theorem startIsReadOnlyInIdle : Obligations.StartIsReadOnlyInIdle := by
  refine ⟨fun s hs hr hstart => ?_, fun s b hs => step_withInputs (agreesWhereNamed_start hs b),
    fun s x y hd hf hn => ?_⟩
  · exact ⟨_, step_of_start hs hr hstart, State.clockInputs_state _⟩
  · obtain ⟨u, hu⟩ := exists_step_of_done hd
    have hy : u.inputs = y := (hf.step hu).head
    have hr : u.inputs.rst = false := hy ▸ hn y (by simp)
    obtain ⟨t, ht, hstate⟩ := step_of_idle (step_of_done hd hu) hr
    exact ⟨t, by rw [run_succ_of_step hu, run_one, ht], hy ▸ hstate⟩

/-! ### Cycles under configuration T1 (R102) -/

/-- The inputs of `n` cycles from now on, at least, are decided, with both strobes in each and no reset. -/
def FedT1 (n : Nat) (s : State) : Prop :=
  ∃ xs, Feeds s xs ∧ NoReset xs ∧ BothStrobes xs ∧ n ≤ xs.length

namespace FedT1

variable {n : Nat} {s t : State}

theorem mono {m : Nat} (h : FedT1 n s) (hle : m ≤ n) : FedT1 m s := by
  obtain ⟨xs, hf, hn, hb, hlen⟩ := h
  exact ⟨xs, hf, hn, hb, hle.trans hlen⟩

theorem inputs (h : FedT1 (n + 1) s) :
    s.inputs.rst = false ∧ s.inputs.usTick = true ∧ s.inputs.sampleTick = true := by
  obtain ⟨xs, hf, hn, hb, hlen⟩ := h
  obtain ⟨x, xs, rfl⟩ := List.exists_cons_of_length_pos (Nat.zero_lt_of_lt hlen)
  rw [hf.head]
  exact ⟨hn x List.mem_cons_self, hb x List.mem_cons_self⟩

theorem step (h : FedT1 (n + 1) s) (hstep : step s = .next t) : FedT1 n t := by
  obtain ⟨xs, hf, hn, hb, hlen⟩ := h
  obtain ⟨x, xs, rfl⟩ := List.exists_cons_of_length_pos (Nat.zero_lt_of_lt hlen)
  exact ⟨xs, hf.step hstep, fun y hy => hn y (List.mem_cons_of_mem x hy),
    fun y hy => hb y (List.mem_cons_of_mem x hy), Nat.le_of_succ_le_succ hlen⟩

theorem run {m : Nat} (h : FedT1 (m + n) s) (hrun : run m s = .next t) : FedT1 n t := by
  induction m generalizing s with
  | zero =>
    cases hrun
    rwa [Nat.zero_add] at h
  | succ m ih =>
    rw [Nat.add_right_comm] at h
    obtain ⟨u, hu, hrest⟩ := run_prefix (Nat.add_comm m 1 ▸ hrun)
    exact ih (h.step ((run_one s).symm.trans hu)) hrest

end FedT1

/-! ### Stretches of a run in one state -/

/-- The `n` cycles from `s` on are all in the state `st`, and `t` comes after them. -/
def Stays (st : AttemptState) (n : Nat) (s t : State) : Prop :=
  run n s = .next t ∧ ∀ k < n, ∃ u, run k s = .next u ∧ u.state = st

namespace Stays

variable {st : AttemptState} {n : Nat} {s t : State}

theorem refl (st : AttemptState) (s : State) : Stays st 0 s s := ⟨rfl, nofun⟩

/-- One more cycle in front of a stretch. -/
theorem cons {u : State} (hs : s.state = st) (hstep : step s = .next u) (h : Stays st n u t) :
    Stays st (n + 1) s t := by
  obtain ⟨hrun, hstay⟩ := h
  refine ⟨(run_succ_of_step hstep).trans hrun, fun k hk => ?_⟩
  cases k with
  | zero => exact ⟨s, rfl, hs⟩
  | succ k =>
    rw [run_succ_of_step hstep]
    exact hstay k (Nat.lt_of_succ_lt_succ hk)

/-- The end of a stretch, in the cycles of a run that leads to it. -/
theorem run_end {r : State} {m : Nat} (h : Stays st n s t) (hr : run m r = .next s) :
    run (m + n) r = .next t :=
  (run_add hr).trans h.1

/-- The cycles of a stretch, in the cycles of a run that leads to it. -/
theorem state_at {r : State} {m k : Nat} (h : Stays st n s t) (hr : run m r = .next s) (hle : m ≤ k)
    (hlt : k < m + n) : ∃ u, run k r = .next u ∧ u.state = st := by
  obtain ⟨j, rfl⟩ := Nat.exists_eq_add_of_le hle
  rw [run_add hr]
  exact h.2 j (Nat.lt_of_add_lt_add_left hlt)

end Stays

/-! ### The handshake under T1 -/

/-- A strobe in the state `st` is counted by TCNT, and the `n`-th ends it in `after`. -/
def EndsAtStrobe (st : AttemptState) (n : Nat) (after : AttemptState) : Prop :=
  ∀ s : State, s.state = st → s.inputs.rst = false → s.inputs.usTick = true →
    step s = .next (handshakeTick n after s).clockInputs

theorem endsAtStrobe_hsLow : EndsAtStrobe .hsLow 20000 .hsHigh :=
  fun _ hs hr hu => step_of_condition (r := .hsLowTick) ⟨hr, hs, hu⟩

theorem endsAtStrobe_hsHigh : EndsAtStrobe .hsHigh 40 .sampling :=
  fun _ hs hr hu => step_of_condition (r := .hsHighTick) ⟨hr, hs, hu⟩

theorem EndsAtStrobe.step {st after : AttemptState} {n m : Nat} (h : EndsAtStrobe st n after) {s : State}
    (hs : s.state = st) (hf : FedT1 (m + 1) s) : step s = .next (handshakeTick n after s).clockInputs := by
  obtain ⟨hr, hu, -⟩ := hf.inputs
  exact h s hs hr hu

/-- With a strobe in every cycle, a handshake state lasts as many cycles as there are strobes left. -/
theorem EndsAtStrobe.stays {st after : AttemptState} {n m : Nat} (h : EndsAtStrobe st n after) (hn : n ≤ 32767)
    {s : State} (hs : s.state = st) (hleft : s.tcnt.toNat + (m + 1) = n) (hf : FedT1 (m + 1) s) :
    ∃ t, Stays st (m + 1) s t ∧ t.state = after ∧ t.tcnt = 0 ∧ t.di = s.di := by
  induction m generalizing s with
  | zero =>
    have hstep := h.step hs hf
    rw [handshakeTick_last (by omega)] at hstep
    exact ⟨_, .cons hs hstep (.refl ..), by simp, by simp, by simp⟩
  | succ m ih =>
    have hstep := h.step hs hf
    rw [handshakeTick_count (by omega)] at hstep
    have hcount : (tcntPlusOne s).toNat = s.tcnt.toNat + 1 := toNat_tcntPlusOne (by omega)
    have hleft' : (s.setTcnt (tcntPlusOne s)).clockInputs.tcnt.toNat + (m + 1) = n := by
      rw [State.clockInputs_tcnt, State.setTcnt_tcnt, hcount]
      omega
    obtain ⟨t, hstay, hstate, htcnt, hdi⟩ := ih (by simpa using hs) hleft' (hf.step hstep)
    exact ⟨t, .cons hs hstep hstay, hstate, htcnt, by simpa using hdi⟩

/-! ### SAMPLING under T1 (R133) -/

theorem step_sampling_di {s t : State} (hr : s.inputs.rst = false) (hs : s.state = .sampling)
    (h : step s = .next t) : t.di = s.di := by
  rcases step_sampling_cases hr hs h with ⟨-, rfl⟩ | ⟨-, -, -, rfl⟩ | ⟨-, -, -, rfl⟩ | ⟨-, -, -, rfl⟩
  case inr.inr.inr => rw [State.clockInputs_di, afterChange_eq]
  all_goals exact State.clockInputs_di _

/-- With a sample in every cycle, SAMPLING lasts no more cycles than there are samples left to spend. -/
theorem RunningValues.stays_sampling {s : State} {m : Nat} (h : RunningValues s) (hs : s.state = .sampling)
    (hleft : 21675 ≤ samplesSpent s + m) (hf : FedT1 m s) :
    ∃ l t, samplesSpent s + l ≤ 21675 ∧ Stays .sampling l s t ∧ SamplingEnded t ∧ t.di = s.di := by
  have hlt : samplesSpent s < 21675 := h.samplesSpent_lt hs
  induction m generalizing s with
  | zero => omega
  | succ m ih =>
    obtain ⟨hr, -, hk⟩ := hf.inputs
    obtain ⟨u, hu, hku⟩ := h.step_next
    have hdi : u.di = s.di := step_sampling_di hr hs hu
    rcases h.step_sampling hr hs hu with hend | ⟨hus, hspent⟩
    · exact ⟨1, u, hlt, .cons hs hu (.refl ..), hend, hdi⟩
    · rw [hk, Bool.toNat_true] at hspent
      obtain ⟨l, t, hl, hstay, hend, hdi'⟩ :=
        ih hku hus (by omega) (hf.step hu) (hku.samplesSpent_lt hus)
      exact ⟨l + 1, t, by omega, .cons hs hu hstay, hend, hdi'.trans hdi⟩

/-! ### DECODING and the done cycle (R176) -/

theorem execValidate_tlen {s t : State} (h : execValidate s = .next t) : t.tlen = s.tlen := by
  rcases execValidate_cases s with ⟨-, hv⟩ | ⟨-, -, hv⟩ | ⟨-, -, hv⟩
  all_goals
    rw [hv] at h
    cases h
    rfl

theorem step_validate_tlen {s t : State} (hc : RowCondition s .validate) (h : step s = .next t) :
    t.tlen = s.tlen := by
  obtain ⟨u, hu, rfl⟩ := step_inv h
  rw [cycleRow_eq_of_condition hc] at hu
  exact (State.clockInputs_tlen u).trans (execValidate_tlen hu)

/-- DECODING lasts TLEN + 1 cycles, and a done cycle follows. -/
theorem FedT1.stays_decoding {s : State} (hs : s.state = .decoding) (hdi : s.di = 0) (htlen : s.tlen.toNat ≤ 85)
    (hf : FedT1 (s.tlen.toNat + 1) s) :
    ∃ t, Stays .decoding (s.tlen.toNat + 1) s t ∧ t.tlen = s.tlen ∧ done t = true := by
  obtain ⟨xs, hfeeds, hn, -, hlen⟩ := hf
  obtain ⟨v, hv, hat, hvalidate⟩ := run_validation hs hdi htlen hfeeds hn (by omega)
  obtain ⟨t, ht, hdone⟩ := step_of_validate hvalidate
  have htl : t.tlen = v.tlen := step_validate_tlen hvalidate ht
  refine ⟨t, ⟨(run_succ_last hv).trans ht, fun k hk => ?_⟩, htl.trans hat.tlen, hdone⟩
  obtain ⟨u, hu, hat', -⟩ := run_decodingAt hs hdi htlen hfeeds hn (Nat.le_of_lt_succ hk) (by omega)
  exact ⟨u, hu, hat'.state⟩

/-! ### A whole attempt under T1 (R253) -/

/-- The handshake: 20000 cycles of HS_LOW, then 40 of HS_HIGH. -/
theorem FedT1.stays_handshake {s : State} {n : Nat} (hs : s.state = .hsLow) (htcnt : s.tcnt = 0)
    (hf : FedT1 (20000 + (40 + n)) s) :
    ∃ u v, Stays .hsLow 20000 s u ∧ Stays .hsHigh 40 u v ∧ v.state = .sampling ∧ v.di = s.di ∧ FedT1 n v := by
  obtain ⟨u, hlow, hustate, hutcnt, hudi⟩ :=
    endsAtStrobe_hsLow.stays (m := 19999) (by decide) hs (by simp [htcnt]) (hf.mono (Nat.le_add_right ..))
  have hfu : FedT1 (40 + n) u := hf.run hlow.1
  obtain ⟨v, hhigh, hvstate, -, hvdi⟩ :=
    endsAtStrobe_hsHigh.stays (m := 39) (by decide) hustate (by simp [hutcnt]) (hfu.mono (Nat.le_add_right ..))
  exact ⟨u, v, hlow, hhigh, hvstate, hvdi.trans hudi, hfu.run hhigh.1⟩

/-- From the first cycle of SAMPLING to the done cycle: at most 85 × 255 samples, then TLEN + 1 cycles of DECODING. -/
theorem RunningValues.stays_until_done {s : State} (h : RunningValues s) (hs : s.state = .sampling)
    (hdi : s.di = 0) (hf : FedT1 (21675 + 86) s) :
    ∃ l u t, l ≤ 21675 ∧ t.tlen.toNat ≤ 85 ∧ Stays .sampling l s u ∧ Stays .decoding (t.tlen.toNat + 1) u t ∧
      done t = true := by
  obtain ⟨l, u, hl, hsampling, ⟨hustate, hend⟩, hudi⟩ := h.stays_sampling hs (by omega) hf
  have htlen : u.tlen.toNat ≤ 85 := by omega
  have hfu : FedT1 (u.tlen.toNat + 1) u :=
    (hf.mono (m := l + (u.tlen.toNat + 1)) (by omega)).run hsampling.1
  obtain ⟨t, hdecoding, httlen, hdone⟩ := hfu.stays_decoding hustate (hudi.trans hdi) htlen
  rw [← httlen] at htlen hdecoding
  exact ⟨l, u, t, by omega, htlen, hsampling, hdecoding, hdone⟩

theorem RunningValues.of_run {n : Nat} {s t : State} (h : RunningValues s) (hrun : run n s = .next t) :
    RunningValues t := by
  obtain ⟨u, hu, hku⟩ := h.run_next n
  rw [hrun] at hu
  cases hu
  exact hku

/-- Settles O42: the stretches of the attempt, each begun where the one before it ends. -/
theorem everyAttemptEndsOnTime : Obligations.EveryAttemptEndsOnTime := by
  refine ⟨fun s xs hs hstart hf hn hb hlen => ?_, rfl, rfl⟩
  have hfed : FedT1 (1 + (20000 + (40 + (21675 + 86)))) s := ⟨xs, hf, hn, hb, hlen.ge⟩
  obtain ⟨hr, -, -⟩ := (hfed.mono (Nat.le_add_right 1 _)).inputs
  have hbegin : run 1 s = .next s.beginAttempt.clockInputs := (run_one s).trans (step_of_start hs hr hstart)
  obtain ⟨u, v, hlow, hhigh, hvstate, hvdi, hfv⟩ := (hfed.run hbegin).stays_handshake (by simp) (by simp)
  have hu : run 20001 s = .next u := hlow.run_end hbegin
  have hv : run 20041 s = .next v := hhigh.run_end hu
  have hvalues : RunningValues v :=
    ((runningValues_beginAttempt s).clockInputs.of_run hlow.1).of_run hhigh.1
  obtain ⟨l, w, t, hl, htlen, hsampling, hdecoding, hdone⟩ :=
    hvalues.stays_until_done hvstate (hvdi.trans (by simp)) hfv
  have hw : run (20041 + l) s = .next w := hsampling.run_end hv
  have hcycle : 20042 + l + t.tlen.toNat = 20041 + l + (t.tlen.toNat + 1) := by omega
  refine ⟨l, t, hl, htlen, ?_⟩
  rw [hcycle]
  exact ⟨hdecoding.run_end hw, hdone, fun k => hlow.state_at hbegin,
    fun k => hhigh.state_at hu, fun k => hsampling.state_at hv, fun k => hdecoding.state_at hw⟩

end Sys2Proof.Machine

/-! SUPPORT. Proofs of the family other: the encoder and the decoder, what stops a step, the invariant of the core,
the handshake and a measurement under any pattern of strobes, the end of every attempt, and its independence of the
past. -/

namespace Sys2Proof.Machine

/-! ### The encoder and the decoder (R96, R98, R101) -/

theorem rowOf_encodeWord (i : Instr) : rowOf (encodeWord i) = some i.row := by
  cases i <;> exact rowOf_packWord ..

theorem build_encodeWord (i : Instr) : i.row.build (encodeWord i) = i := by
  cases i <;> exact build_packWord ..

/-- Settles O1: the word of an instruction has the instruction's row, and its fields are the instruction's bits. -/
theorem decodeInvertsEncode : Obligations.DecodeInvertsEncode := by
  intro i rest
  have h : decode (encodeWord i :: rest) = .ok (i.row.build (encodeWord i), rest) :=
    decode_of_rowOf (rowOf_encodeWord i) rest
  rwa [build_encodeWord] at h

/-- An instruction built from packed fields keeps those its row leaves untested, and its row fixes the others. -/
theorem encodeWord_build_packWord {st : AttemptState} {r t u k c : Bool} {row : Row}
    (h : rowOf (packWord st r t u k c) = some row) :
    encodeWord (row.build (packWord st r t u k c)) = packWord st r t u k c := by
  rw [rowOf_packWord, Option.some_inj] at h
  subst h
  rw [build_packWord]
  cases r with
  | true => rfl
  | false =>
    cases st with
    | idle => cases t <;> rfl
    | hsLow | hsHigh => cases u <;> rfl
    | sampling =>
      cases k with
      | false => rfl
      | true => cases c <;> rfl
    | decoding => cases c <;> rfl
    | success | failure | unused => rfl

theorem encodeWord_build {w : Byte} {r : Row} (h : rowOf w = some r) : encodeWord (r.build w) = w := by
  rw [← packWord_fields w] at h
  simpa only [packWord_fields] using encodeWord_build_packWord h

/-- Settles O2: a word is packed from its fields, and the instruction keeps all that its row does not fix. -/
theorem encodeInvertsDecode : Obligations.EncodeInvertsDecode := by
  intro bytes rest i h
  cases bytes with
  | nil => cases h
  | cons w tail =>
    obtain ⟨r, hr⟩ := exists_rowOf w
    rw [decode_of_rowOf hr] at h
    cases h
    rw [encode, encodeWord_build hr]
    rfl

/-- Settles O4, word by word. -/
theorem decoderReadsTheSpecsWords : Obligations.DecoderReadsTheSpecsWords :=
  ⟨rfl, rfl, rfl, rfl, rfl, rfl, rfl, rfl, rfl, rfl, rfl, rfl, rfl⟩

/-! ### The step and its faults (R14, R70) -/

theorem step_of_decode {s : State} {i : Instr} {rest : List Byte} (h : decode (fetchBytes s) = .ok (i, rest)) :
    step s = clockEdge (exec i s) := by
  simp only [step, h]

/-- At the edge the nearest decided inputs arrive, or else a free draw. -/
theorem clockInputs_eq (u : State) : ∃ x xs,
    (u.stimulus = x :: xs ∨ (u.stimulus = [] ∧ xs = [] ∧ x = Config.freeInputs u.draws)) ∧
    u.clockInputs = { u with inputs := x, stimulus := xs, draws := u.draws + 1 } := by
  unfold State.clockInputs
  cases hq : u.stimulus with
  | nil => exact ⟨_, [], .inr ⟨rfl, rfl, rfl⟩, rfl⟩
  | cons x xs => exact ⟨x, xs, .inl rfl, rfl⟩

/-- Settles O7: the step is the rule and then the edge, which passes a fault on. -/
theorem stepRunsTheDecodedInstruction : Obligations.StepRunsTheDecodedInstruction := by
  intro s i hi
  rw [step_of_decode hi]
  refine ⟨fun u hu => ?_, fun f hf => by rw [hf]; rfl, fun r hr => ?_⟩
  · obtain ⟨x, xs, hx, hclock⟩ := clockInputs_eq u
    exact ⟨x, xs, hx, by rw [hu, clockEdge_next, hclock]⟩
  · rw [exec_eq_rowMeaning] at hr
    exact rowMeaning_ne_refused _ s r hr

/-- Settles O14: these counts are not the last of their state, so the rule counts, to a value left open. -/
theorem counterOverflowLeavesAFreeValue : Obligations.CounterOverflowLeavesAFreeValue := by
  refine ⟨fun s t k c hmax => ⟨⟨tcntPlusOne s, ?_⟩, ⟨tcntPlusOne s, ?_⟩⟩, fun s t u hmax => ⟨cntPlusOne s, ?_⟩⟩
  · exact congrArg _ (handshakeTick_count (n := 20000) (by omega))
  · exact congrArg _ (handshakeTick_count (n := 40) (by omega))
  · exact execSampleSame_count (by omega)

theorem step_of_rowMeaning {s t : State} (h : rowMeaning (cycleRow s) s = .next t) :
    step s = .next t.clockInputs := by
  rw [step_eq, h, clockEdge_next]

/-- Settles O16: of all the rules only these two look at an index, and every other answers a next state. -/
theorem onlyAnAbsentTraceIndexStops : Obligations.OnlyAnAbsentTraceIndexStops := by
  refine ⟨fun s t u => execSampleChange_of_ge, fun s t u k => execDecodeEntry_of_ge, fun s => ?_⟩
  by_cases hchange : cycleRow s = .sampleChange ∧ 85 ≤ s.tlen.toNat
  · obtain ⟨hrow, htlen⟩ := hchange
    have hc : RowCondition s .sampleChange := (cycleRow_eq_iff s _).mp hrow
    have ⟨hr, hs, hk, hl⟩ := hc
    exact .inr (.inl ⟨hr, hs, hk, hl, htlen,
      (step_of_condition hc).trans (congrArg clockEdge (execSampleChange_of_ge htlen))⟩)
  by_cases hentry : cycleRow s = .decodeEntry ∧ 85 ≤ s.di.toNat
  · obtain ⟨hrow, hdi⟩ := hentry
    have hc : RowCondition s .decodeEntry := (cycleRow_eq_iff s _).mp hrow
    have ⟨hr, hs, hne⟩ := hc
    exact .inr (.inr ⟨hr, hs, hne, hdi,
      (step_of_condition hc).trans (congrArg clockEdge (execDecodeEntry_of_ge hdi))⟩)
  · obtain ⟨u, hu⟩ := rowMeaning_next s (fun hrow => Nat.lt_of_not_le fun htlen => hchange ⟨hrow, htlen⟩)
      (fun hrow => Nat.lt_of_not_le fun hdi => hentry ⟨hrow, hdi⟩)
    exact .inl ⟨_, step_of_rowMeaning hu⟩

/-! ### The entries recorded (R73, R130, R132) -/

/-- What the invariant says of TRACE: the entries below `n` were written, with levels and durations as they should
be. -/
structure EntriesRecorded (m : Memory) (n : Nat) : Prop where
  wf : Memory.wf m
  written : ∀ i < n, (Memory.lookup m i).isSome
  levels : ∀ i < n, (Memory.read m i).resultingLevel = alternating i
  durations : ∀ i < n, (Memory.read m i).durationTicks.toNat < satMax

theorem Inv.entriesRecorded {s : State} (h : Inv s) : EntriesRecorded s.trace s.tlen.toNat :=
  ⟨h.trace_wf, h.written, h.levels, h.durations⟩

theorem entriesRecorded_zero {m : Memory} (h : Memory.wf m) : EntriesRecorded m 0 :=
  ⟨h, nofun, nofun, nofun⟩

/-- One more entry, of the level that is due. -/
theorem EntriesRecorded.write {m : Memory} {n : Nat} {l : Level} {d : Byte} (h : EntriesRecorded m n)
    (hn : n < traceCap) (hl : l = alternating n) (hd : d.toNat < satMax) :
    EntriesRecorded (Memory.write m n ⟨l, d⟩) (n + 1) := by
  have hread {i : Nat} (hi : i ≠ n) : Memory.read (Memory.write m n ⟨l, d⟩) i = Memory.read m i :=
    Memory.read_write_other m _ hi
  refine ⟨Memory.wf_write _ hn h.wf, fun i hi => ?_, fun i hi => ?_, fun i hi => ?_⟩
  all_goals rcases Nat.lt_succ_iff_lt_or_eq.mp hi with hlt | rfl
  · rw [Memory.lookup_write_other m _ hlt.ne]
    exact h.written i hlt
  · rw [Memory.lookup_write_same]
    rfl
  · rw [hread hlt.ne]
    exact h.levels i hlt
  · rwa [Memory.read_write_same]
  · rw [hread hlt.ne]
    exact h.durations i hlt
  · rwa [Memory.read_write_same]

theorem handshakeTick_frame (n : Nat) (after : AttemptState) (s : State) :
    (handshakeTick n after s).trace = s.trace ∧ (handshakeTick n after s).tlen = s.tlen := by
  unfold handshakeTick
  split <;> exact ⟨rfl, rfl⟩

/-- SAMPLE_CHANGE alone writes TRACE; any other rule keeps TLEN too, or sets it to 0. -/
theorem rowMeaning_trace {r : Row} {s t : State} (hr : r ≠ .sampleChange) (h : rowMeaning r s = .next t) :
    t.trace = s.trace ∧ (t.tlen = s.tlen ∨ t.tlen = 0) := by
  cases r with
  | sampleChange => exact absurd rfl hr
  | reset | attemptRead =>
    cases h
    exact ⟨rfl, .inr rfl⟩
  | idleWait | hsLowWait | hsHighWait | sampleWait | successDone | failureDone | unusedState =>
    cases h
    exact ⟨rfl, .inl rfl⟩
  | hsLowTick | hsHighTick =>
    cases h
    obtain ⟨htrace, htlen⟩ := handshakeTick_frame _ _ s
    exact ⟨htrace, .inl htlen⟩
  | sampleSame =>
    by_cases hc : s.cnt.toNat = 254
    · rw [rowMeaning, execSampleSame_last hc] at h
      cases h
      exact ⟨rfl, .inl rfl⟩
    · rw [rowMeaning, execSampleSame_count hc] at h
      cases h
      exact ⟨rfl, .inl rfl⟩
  | decodeEntry =>
    obtain ⟨-, rfl⟩ := withTraceIndex_eq_next h
    split <;> exact ⟨rfl, .inl rfl⟩
  | validate =>
    rcases execValidate_cases s with ⟨-, hv⟩ | ⟨-, -, hv⟩ | ⟨-, -, hv⟩
    all_goals
      rw [rowMeaning, hv] at h
      cases h
      exact ⟨rfl, .inl rfl⟩

/-! ### The levels of a trace (R129, R130) -/

theorem level_eq_of_ne_flip : ∀ {l m : Level}, l ≠ m.flip → l = m
  | .low, .low, _ | .high, .high, _ => rfl
  | .low, .high, h | .high, .low, h => absurd rfl h

theorem alternating_eq_flip_succ (i : Nat) : alternating i = (alternating (i + 1)).flip := by
  unfold alternating
  rcases Nat.mod_two_eq_zero_or_one i with h | h
  · rw [if_pos h, if_neg (by omega)]
    rfl
  · rw [if_neg (by omega), if_pos (by omega)]
    rfl

/-- In SAMPLING a level other than REF is the one that the next entry should have. -/
theorem Inv.lineIn_eq_alternating {s : State} (h : Inv s) (hs : s.state = .sampling) (hl : s.inputs.lineIn ≠ s.ref) :
    s.inputs.lineIn = alternating s.tlen.toNat := by
  obtain ⟨-, href⟩ := h.sampling hs
  exact level_eq_of_ne_flip (href ▸ hl)

theorem afterChange_frame (s : State) :
    (afterChange s).trace = Memory.write s.trace s.tlen.toNat ⟨s.inputs.lineIn, s.cnt⟩ ∧
    (afterChange s).tlen = s.tlen + 1#7 := by
  rw [afterChange_eq]
  exact ⟨rfl, rfl⟩

/-- The rule of a cycle keeps what the invariant says of TRACE. -/
theorem Inv.rowMeaning_entriesRecorded {s t : State} {r : Row} (h : Inv s) (hc : RowCondition s r)
    (ht : rowMeaning r s = .next t) : EntriesRecorded t.trace t.tlen.toNat := by
  by_cases hr : r = .sampleChange
  · subst hr
    obtain ⟨-, hs, -, hl⟩ := hc
    obtain ⟨hroom, -⟩ := h.sampling hs
    have hcnt : s.cnt.toNat < satMax := h.runningValues.cnt_lt_of_sampling hs
    rw [rowMeaning, execSampleChange_of_lt hroom] at ht
    cases ht
    obtain ⟨htrace, htlen⟩ := afterChange_frame s
    rw [htrace, htlen, toNat_succ7 (Nat.lt_of_lt_of_le hroom (by decide))]
    exact h.entriesRecorded.write hroom (h.lineIn_eq_alternating hs hl) hcnt
  · obtain ⟨htrace, htlen | htlen⟩ := rowMeaning_trace hr ht
    all_goals rw [htrace, htlen]
    · exact h.entriesRecorded
    · exact entriesRecorded_zero h.trace_wf

/-! ### What each state of an attempt holds (R126, R133, R169) -/

/-- What the invariant says of the registers state by state, up to the validation. -/
structure PhaseFacts (s : State) : Prop where
  handshake : s.state = .hsLow ∨ s.state = .hsHigh → s.ref = .high ∧ s.cnt = 0#8 ∧ s.tlen = 0#7
  undecoded : s.state = .hsLow ∨ s.state = .hsHigh ∨ s.state = .sampling →
    s.sat = false ∧ s.di = 0#7 ∧ s.nbits = 0#6 ∧ s.shift = 0#40
  sampling : s.state = .sampling → s.tlen.toNat < traceCap ∧ s.ref = (alternating s.tlen.toNat).flip
  ended : s.state = .decoding →
    (s.tlen.toNat = traceCap ∧ s.sat = false) ∨ (s.tlen.toNat < traceCap ∧ s.sat = true)
  decoded : s.state = .decoding → BitsDecoded s

theorem Inv.phaseFacts {s : State} (h : Inv s) : PhaseFacts s :=
  ⟨h.handshake, h.undecoded, h.sampling, h.ended, h.decoded⟩

/-- In IDLE and in the done states nothing is said. -/
theorem phaseFacts_of_idle_or_done {s : State} (hs : s.state = .idle ∨ s.state = .success ∨ s.state = .failure) :
    PhaseFacts s := by
  rcases hs with hs | hs | hs <;> constructor <;> simp [hs]

theorem phaseFacts_beginAttempt (s : State) : PhaseFacts s.beginAttempt where
  handshake := fun _ => ⟨rfl, rfl, rfl⟩
  undecoded := fun _ => ⟨rfl, rfl, rfl, rfl⟩
  sampling := nofun
  ended := nofun
  decoded := nofun

/-- Where DECODING begins, no entry has been looked at. -/
theorem bitsDecoded_of_undecoded {s : State} (hdi : s.di = 0#7) (hnbits : s.nbits = 0#6) (hshift : s.shift = 0#40) :
    BitsDecoded s := by
  rw [BitsDecoded, hdi, hnbits, hshift]
  exact ⟨rfl, rfl⟩

namespace PhaseFacts

variable {s t : State} (h : PhaseFacts s)
include h

theorem clockInputs : PhaseFacts s.clockInputs := by
  unfold State.clockInputs
  cases s.stimulus <;> exact { h with }

theorem setTcnt (v : BitVec 15) : PhaseFacts (s.setTcnt v) := { h with }

theorem hsLowTick (hs : s.state = .hsLow) : PhaseFacts (handshakeTick nReqLow .hsHigh s) := by
  by_cases hc : s.tcnt.toNat = nReqLow - 1
  · rw [handshakeTick_last hc]
    exact { handshake := fun _ => h.handshake (.inl hs), undecoded := fun _ => h.undecoded (.inl hs),
            sampling := nofun, ended := nofun, decoded := nofun }
  · rw [handshakeTick_count hc]
    exact h.setTcnt _

/-- R126: SAMPLING begins with no entry and REF at HIGH, so that the first entry goes to LOW. -/
theorem hsHighTick (hs : s.state = .hsHigh) : PhaseFacts (handshakeTick nReqHigh .sampling s) := by
  by_cases hc : s.tcnt.toNat = nReqHigh - 1
  · rw [handshakeTick_last hc]
    obtain ⟨href, -, htlen⟩ := h.handshake (.inr hs)
    refine { handshake := nofun, undecoded := fun _ => h.undecoded (.inr (.inl hs)), sampling := fun _ => ?_,
             ended := nofun, decoded := nofun }
    simp only [State.setTcnt_tlen, State.goto_tlen, State.setTcnt_ref, State.goto_ref, href, htlen]
    exact ⟨by decide, rfl⟩
  · rw [handshakeTick_count hc]
    exact h.setTcnt _

/-- R128: saturation ends sampling before the cap. -/
theorem sampleSame (hs : s.state = .sampling) (ht : execSampleSame s = .next t) : PhaseFacts t := by
  by_cases hc : s.cnt.toNat = 254
  · rw [execSampleSame_last hc] at ht
    cases ht
    obtain ⟨-, hdi, hnbits, hshift⟩ := h.undecoded (.inr (.inr hs))
    exact { handshake := nofun, undecoded := by simp, sampling := nofun,
            ended := fun _ => .inr ⟨(h.sampling hs).1, rfl⟩,
            decoded := fun _ => bitsDecoded_of_undecoded hdi hnbits hshift }
  · rw [execSampleSame_count hc] at ht
    cases ht
    exact { h with handshake := by simp [hs] }

/-- R129: the cap ends sampling unsaturated; before it, measuring goes on at the level of the entry recorded. -/
theorem sampleChange (hs : s.state = .sampling) (hl : s.inputs.lineIn = alternating s.tlen.toNat) :
    PhaseFacts (afterChange s) := by
  have hundecoded := h.undecoded (.inr (.inr hs))
  obtain ⟨hroom, -⟩ := h.sampling hs
  have hnext : (s.tlen + 1#7).toNat = s.tlen.toNat + 1 := toNat_succ7 (Nat.lt_of_lt_of_le hroom (by decide))
  unfold afterChange
  split
  next hcap =>
    obtain ⟨hsat, hdi, hnbits, hshift⟩ := hundecoded
    exact { handshake := nofun, undecoded := by simp, sampling := nofun,
            ended := fun _ => .inl ⟨hnext.trans hcap, hsat⟩,
            decoded := fun _ => bitsDecoded_of_undecoded hdi hnbits hshift }
  next hcap =>
    refine { handshake := by simp [hs], undecoded := fun _ => hundecoded, sampling := fun _ => ?_,
             ended := by simp [hs], decoded := by simp [hs] }
    rw [State.recordTransition_tlen, State.recordTransition_ref, hnext, hl]
    exact ⟨Nat.lt_of_le_of_ne hroom hcap, alternating_eq_flip_succ _⟩

/-- R161: the trace stays as sampling left it, and the bits of one more entry are decoded. -/
theorem decodeEntry (hs : s.state = .decoding) (hdi : s.di.toNat < s.tlen.toNat) : PhaseFacts (afterEntry s) := by
  obtain ⟨hstate, -, htlen, -, hsat⟩ := afterEntry_frame s
  rw [hs] at hstate
  exact { handshake := by simp [hstate], undecoded := by simp [hstate], sampling := by simp [hstate],
          ended := fun _ => by rw [htlen, hsat]; exact h.ended hs,
          decoded := fun _ => (h.decoded hs).afterEntry hdi }

end PhaseFacts

/-- The rule of a cycle keeps what the invariant says state by state. -/
theorem Inv.rowMeaning_phaseFacts {s t : State} {r : Row} (h : Inv s) (hc : RowCondition s r)
    (ht : rowMeaning r s = .next t) : PhaseFacts t := by
  have hp : PhaseFacts s := h.phaseFacts
  cases r with
  | reset | successDone | failureDone | unusedState =>
    cases ht
    exact phaseFacts_of_idle_or_done (.inl rfl)
  | attemptRead =>
    cases ht
    exact phaseFacts_beginAttempt s
  | idleWait | hsLowWait | hsHighWait | sampleWait =>
    cases ht
    exact hp
  | hsLowTick =>
    obtain ⟨-, hs, -⟩ := hc
    cases ht
    exact hp.hsLowTick hs
  | hsHighTick =>
    obtain ⟨-, hs, -⟩ := hc
    cases ht
    exact hp.hsHighTick hs
  | sampleSame =>
    obtain ⟨-, hs, -, -⟩ := hc
    exact hp.sampleSame hs ht
  | sampleChange =>
    obtain ⟨-, hs, -, hl⟩ := hc
    rw [rowMeaning, execSampleChange_of_lt (h.sampling hs).1] at ht
    cases ht
    exact hp.sampleChange hs (h.lineIn_eq_alternating hs hl)
  | decodeEntry =>
    obtain ⟨-, hs, hd⟩ := hc
    have hdi : s.di.toNat < s.tlen.toNat := h.runningValues.di_lt hd
    rw [rowMeaning, execDecodeEntry_of_lt (Nat.lt_of_lt_of_le hdi h.values.tlen_le)] at ht
    cases ht
    exact hp.decodeEntry hs hdi
  | validate => exact phaseFacts_of_idle_or_done (.inr (execValidate_state ht))

/-! ### The outcome and the done states (R166, R167) -/

/-- The done states come after DECODING only. -/
theorem eq_decoding_of_mem_successors {a b : AttemptState} (h : b ∈ successors a)
    (hb : b = .success ∨ b = .failure) : a = .decoding := by
  cases a with
  | decoding => rfl
  | _ => rcases hb with rfl | rfl <;> exact absurd h (by decide)

/-- A done cycle comes from a validation cycle only, whatever the registers hold. -/
theorem validate_of_step_done {s t : State} (h : step s = .next t) (hd : done t = true) : RowCondition s .validate := by
  rw [done_iff] at hd
  cases hr : s.inputs.rst with
  | true =>
    rw [step_of_rst hr] at h
    cases h
    simp at hd
  | false =>
    have hmem : t.state ∈ successors s.state := step_state_mem_successors hr h
    have hs : s.state = .decoding := eq_decoding_of_mem_successors hmem hd
    by_cases hdi : s.di = s.tlen
    · exact ⟨hr, hs, hdi⟩
    · obtain ⟨u, hu, rfl⟩ := step_inv h
      rw [cycleRow_eq_of_condition (r := .decodeEntry) ⟨hr, hs, hdi⟩] at hu
      simp [execDecodeEntry_state hu, hs] at hd

/-- The outcome is the one that goes with the done state, if it is one. -/
def OutcomeFits (s : State) : Prop :=
  (s.state = .success → s.outcome = .success) ∧
  (s.state = .failure → s.outcome = .incompleteFrame ∨ s.outcome = .checksumMismatch)

theorem execValidate_outcomeFits {s t : State} (h : execValidate s = .next t) : OutcomeFits t := by
  rcases execValidate_cases s with ⟨-, hv⟩ | ⟨-, -, hv⟩ | ⟨-, -, hv⟩
  all_goals
    rw [hv] at h
    cases h
  · exact ⟨nofun, fun _ => .inl rfl⟩
  · exact ⟨fun _ => rfl, nofun⟩
  · exact ⟨nofun, fun _ => .inr rfl⟩

/-- After any step the outcome goes with the done state: the validation that led to it wrote both. -/
theorem step_outcomeFits {s t : State} (h : step s = .next t) : OutcomeFits t := by
  cases hd : done t with
  | true =>
    have hc : RowCondition s .validate := validate_of_step_done h hd
    obtain ⟨u, hu, rfl⟩ := step_inv h
    rw [cycleRow_eq_of_condition hc] at hu
    simpa [OutcomeFits] using execValidate_outcomeFits hu
  | false =>
    have hnot : ¬ (t.state = .success ∨ t.state = .failure) := by rw [← done_iff, hd]; decide
    exact ⟨fun hs => absurd (.inl hs) hnot, fun hs => absurd (.inr hs) hnot⟩

theorem noReading_congr {s t : State} (heq : resultOf t = resultOf s) (h : NoReading s) : NoReading t := by
  obtain ⟨-, -, hhi, hhf, hti, htf, hca⟩ := Result.mk.inj heq
  rwa [NoReading, hhi, hhf, hti, htf, hca]

/-- Without a success no Reading is shown: the results are the same as before, or just cleared. -/
theorem Inv.step_noReading {s t : State} (h : Inv s) (hstep : step s = .next t) (hfail : t.outcome ≠ .success) :
    NoReading t := by
  by_cases heq : resultOf t = resultOf s
  · have houtcome : t.outcome = s.outcome := congrArg Result.outcome heq
    exact noReading_congr heq (h.no_reading (houtcome ▸ hfail))
  · exact (resultsChangeOnlyInValidationOrReset s t hstep).2 heq hfail

/-! ### The invariant -/

/-- The invariant, put together from its parts. -/
theorem inv_of_parts {s : State} (hvalues : RunningValues s) (hentries : EntriesRecorded s.trace s.tlen.toNat)
    (hphase : PhaseFacts s) (houtcome : OutcomeFits s) (hreading : s.outcome ≠ .success → NoReading s) : Inv s where
  values := hvalues.toReachableValues
  trace_wf := hentries.wf
  written := hentries.written
  levels := hentries.levels
  durations := hentries.durations
  handshake := hphase.handshake
  undecoded := hphase.undecoded
  sampling := hphase.sampling
  ended := hphase.ended
  decoded := hphase.decoded
  done_success := houtcome.1
  done_failure := houtcome.2
  no_reading := hreading

theorem RunningValues.of_step {s t : State} (h : RunningValues s) (hstep : step s = .next t) : RunningValues t := by
  obtain ⟨u, hu, hku⟩ := h.step_next
  rw [hstep] at hu
  cases hu
  exact hku

/-- Settles O33, part by part. -/
theorem everyStepKeepsTheInvariant : Obligations.EveryStepKeepsTheInvariant := by
  intro s t h hstep
  have hc : RowCondition s (cycleRow s) := rowCondition_cycleRow s
  obtain ⟨u, hu, rfl⟩ := step_inv hstep
  refine inv_of_parts (h.runningValues.of_step hstep) ?entries (h.rowMeaning_phaseFacts hc hu).clockInputs
    (step_outcomeFits hstep) (h.step_noReading hstep)
  case entries =>
    rw [State.clockInputs_trace, State.clockInputs_tlen]
    exact h.rowMeaning_entriesRecorded hc hu

theorem inv_resetRegisters {s : State} (h : Memory.wf s.trace) : Inv s.resetRegisters :=
  inv_of_parts (runningValues_resetRegisters s) (entriesRecorded_zero h) (phaseFacts_of_idle_or_done (.inl rfl))
    ⟨nofun, nofun⟩ fun _ => ⟨rfl, rfl, rfl, rfl, rfl⟩

/-- The edge brings inputs and writes no register. -/
theorem Inv.clockInputs {s : State} (h : Inv s) : Inv s.clockInputs := by
  unfold State.clockInputs
  cases s.stimulus <;> exact { h with values := { h.values with } }

/-- Settles O31: the reset state has the reset values and an empty TRACE. -/
theorem resetStateMeetsTheInvariant : Obligations.ResetStateMeetsTheInvariant :=
  inv_resetRegisters (s := State.reset) Memory.wf_nil

/-- Settles O32: RESET leaves the reset values and TRACE as it was. -/
theorem resetRowEstablishesTheInvariant : Obligations.ResetRowEstablishesTheInvariant :=
  fun _ hwf hr => ⟨_, step_of_rst hr, (inv_resetRegisters hwf).clockInputs⟩

/-- Settles O34: the bounds of the registers keep every access to TRACE below 85. -/
theorem noConditionStopsTheCore : Obligations.NoConditionStopsTheCore := by
  intro s h
  obtain ⟨t, ht, -⟩ := h.runningValues.step_next
  exact ⟨t, ht⟩

/-! ### Stretches of inputs -/

/-- A run of as many cycles as there are inputs in a stretch uses up that stretch. -/
theorem Feeds.run {s t : State} {xs ys : List Inputs} (hf : Feeds s (xs ++ ys)) (h : run xs.length s = .next t) :
    Feeds t ys := by
  induction xs generalizing s with
  | nil =>
    cases h
    exact hf
  | cons x xs ih =>
    rw [List.length_cons, Nat.add_comm] at h
    obtain ⟨u, hu, hrest⟩ := run_prefix h
    exact ih (hf.step ((run_one s).symm.trans hu)) hrest

theorem NoReset.head {x : Inputs} {xs : List Inputs} (h : NoReset (x :: xs)) : x.rst = false :=
  h x List.mem_cons_self

theorem NoReset.tail {x : Inputs} {xs : List Inputs} (h : NoReset (x :: xs)) : NoReset xs :=
  fun y hy => h y (List.mem_cons_of_mem x hy)

theorem NoReset.left {xs ys : List Inputs} (h : NoReset (xs ++ ys)) : NoReset xs :=
  fun x hx => h x (List.mem_append_left ys hx)

theorem NoReset.right {xs ys : List Inputs} (h : NoReset (xs ++ ys)) : NoReset ys :=
  fun x hx => h x (List.mem_append_right xs hx)

theorem usStrobes_cons (x : Inputs) (xs : List Inputs) : usStrobes (x :: xs) = usStrobes xs + x.usTick.toNat := by
  cases hx : x.usTick <;> simp [usStrobes, hx]

theorem samples_cons (x : Inputs) (xs : List Inputs) :
    samples (x :: xs) = if x.sampleTick then x.lineIn :: samples xs else samples xs := by
  unfold samples
  rw [List.filter_cons]
  split <;> rfl

/-! ### The handshake under any pattern of strobes (R124, R126) -/

/-- A handshake state: its strobes are counted up to the `n`-th, and a cycle without one changes nothing. -/
structure HandshakeState (st : AttemptState) (n : Nat) (after : AttemptState) : Prop where
  tick : EndsAtStrobe st n after
  wait : ∀ s : State, s.state = st → s.inputs.rst = false → s.inputs.usTick = false → step s = .next s.clockInputs
  fits : n ≤ 32767

theorem handshakeState_hsLow : HandshakeState .hsLow 20000 .hsHigh where
  tick := endsAtStrobe_hsLow
  wait := fun _ hs hr hu => step_of_condition (r := .hsLowWait) ⟨hr, hs, hu⟩
  fits := by decide

theorem handshakeState_hsHigh : HandshakeState .hsHigh 40 .sampling where
  tick := endsAtStrobe_hsHigh
  wait := fun _ hs hr hu => step_of_condition (r := .hsHighWait) ⟨hr, hs, hu⟩
  fits := by decide

namespace HandshakeState

variable {st after : AttemptState} {n : Nat} (h : HandshakeState st n after) {s : State} {xs : List Inputs}
  (hs : s.state = st) (hf : Feeds s xs) (hr : NoReset xs)
include h hs

/-- Before the `n`-th strobe a cycle adds its strobe to TCNT, and REF and CNT stay. -/
theorem step_counting (hrst : s.inputs.rst = false) (hlt : s.tcnt.toNat + s.inputs.usTick.toNat < n) :
    ∃ t, step s = .next t ∧ t.state = st ∧ t.tcnt.toNat = s.tcnt.toNat + s.inputs.usTick.toNat ∧
      t.ref = s.ref ∧ t.cnt = s.cnt := by
  have hfits := h.fits
  cases hu : s.inputs.usTick with
  | false => exact ⟨_, h.wait s hs hrst hu, by simp [hs]⟩
  | true =>
    rw [hu, Bool.toNat_true] at hlt
    refine ⟨_, h.tick s hs hrst hu, ?_⟩
    rw [handshakeTick_count (by omega)]
    simp [hs, toNat_tcntPlusOne (s := s) (by omega)]

include hf hr

/-- A stretch with fewer strobes than are left stays in the state and counts them. -/
theorem run_counting (hlt : s.tcnt.toNat + usStrobes xs < n) :
    ∃ t, run xs.length s = .next t ∧ t.state = st ∧ t.tcnt.toNat = s.tcnt.toNat + usStrobes xs ∧
      t.ref = s.ref ∧ t.cnt = s.cnt := by
  induction xs generalizing s with
  | nil => exact ⟨s, rfl, hs, rfl, rfl, rfl⟩
  | cons x xs ih =>
    obtain rfl := hf.head
    rw [usStrobes_cons] at hlt ⊢
    obtain ⟨u, hu, hus, hutcnt, huref, hucnt⟩ := h.step_counting hs hr.head (by omega)
    obtain ⟨t, ht, hts, httcnt, htref, htcnt⟩ := ih hus (hf.step hu) hr.tail (by omega)
    exact ⟨t, (run_succ_of_step hu).trans ht, hts, by omega, htref.trans huref, htcnt.trans hucnt⟩

end HandshakeState

/-- The last strobe ends the handshake state. -/
theorem HandshakeState.run_last {st after : AttemptState} {n : Nat} (h : HandshakeState st n after) {s : State}
    {xs : List Inputs} {x : Inputs} (hs : s.state = st) (hf : Feeds s (xs ++ [x])) (hr : NoReset (xs ++ [x]))
    (hlast : s.tcnt.toNat + usStrobes xs + 1 = n) (hx : x.usTick = true) :
    ∃ t, run (xs.length + 1) s = .next t ∧ t.state = after ∧ t.tcnt = 0 ∧ t.ref = s.ref ∧ t.cnt = s.cnt := by
  obtain ⟨u, hu, hus, hutcnt, huref, hucnt⟩ := h.run_counting hs hf.left hr.left (by omega)
  obtain rfl := (hf.run hu).head
  have hstep := h.tick u hus hr.right.head hx
  rw [handshakeTick_last (by omega)] at hstep
  exact ⟨_, (run_succ_last hu).trans hstep, by simp [huref, hucnt]⟩

/-- Settles O36: strobes are counted up to the last one, which enters the next state. -/
theorem handshakeLastsItsStrobes : Obligations.HandshakeLastsItsStrobes := by
  refine ⟨fun s xs hs htcnt hf hr hlt => ?_, fun s xs x hs htcnt hf hr hlast hx => ?_,
    fun s xs hs htcnt hf hr hlt => ?_, fun s xs x hs htcnt hf hr hlast hx => ?_⟩
  all_goals have h0 : s.tcnt.toNat = 0 := congrArg BitVec.toNat htcnt
  · obtain ⟨t, ht, hts, httcnt, -⟩ := handshakeState_hsLow.run_counting hs hf hr (by omega)
    exact ⟨t, ht, hts, by omega, by simp [drivenLevel, lineOe, lineOut, hts]⟩
  · obtain ⟨t, ht, hts, httcnt, -⟩ := handshakeState_hsLow.run_last hs hf hr (by omega) hx
    exact ⟨t, ht, hts, httcnt, by simp [drivenLevel, lineOe, lineOut, hts]⟩
  · obtain ⟨t, ht, hts, httcnt, -⟩ := handshakeState_hsHigh.run_counting hs hf hr (by omega)
    exact ⟨t, ht, hts, by omega, by simp [drivenLevel, lineOe, lineOut, hts]⟩
  · obtain ⟨t, ht, hts, -, href, hcnt⟩ := handshakeState_hsHigh.run_last hs hf hr (by omega) hx
    exact ⟨t, ht, hts, href, hcnt, by simp [drivenLevel, lineOe, hts]⟩

/-! ### One measurement (R131, R132) -/

/-- What the cycles of SAMPLING up to `t` have done since `s`, when they saw `n` samples at REF: CNT counted them. -/
structure Measured (s : State) (n : Nat) (t : State) : Prop where
  state : t.state = .sampling
  cnt : t.cnt.toNat = s.cnt.toNat + n
  ref : t.ref = s.ref
  trace : t.trace = s.trace
  tlen : t.tlen = s.tlen
  sat : t.sat = s.sat

theorem Measured.refl {s : State} (hs : s.state = .sampling) : Measured s 0 s :=
  ⟨hs, rfl, rfl, rfl, rfl, rfl⟩

theorem Measured.trans {s t u : State} {m n : Nat} (h : Measured s m t) (h' : Measured t n u) :
    Measured s (m + n) u :=
  ⟨h'.state, by rw [h'.cnt, h.cnt, Nat.add_assoc], h'.ref.trans h.ref, h'.trace.trans h.trace,
    h'.tlen.trans h.tlen, h'.sat.trans h.sat⟩

section
variable {s : State} (hr : s.inputs.rst = false) (hs : s.state = .sampling)
include hr hs

theorem step_sampleWait (hk : s.inputs.sampleTick = false) : step s = .next s.clockInputs :=
  step_of_condition (r := .sampleWait) ⟨hr, hs, hk⟩

variable (hk : s.inputs.sampleTick = true)
include hk

theorem step_sampleSame_count (hl : s.inputs.lineIn = s.ref) (hc : s.cnt.toNat ≠ 254) :
    step s = .next (s.setCnt (cntPlusOne s)).clockInputs :=
  (step_of_condition (r := .sampleSame) ⟨hr, hs, hk, hl⟩).trans (congrArg clockEdge (execSampleSame_count hc))

theorem step_sampleSame_last (hl : s.inputs.lineIn = s.ref) (hc : s.cnt.toNat = 254) :
    step s = .next s.saturate.clockInputs :=
  (step_of_condition (r := .sampleSame) ⟨hr, hs, hk, hl⟩).trans (congrArg clockEdge (execSampleSame_last hc))

theorem step_sampleChange (hl : s.inputs.lineIn ≠ s.ref) (hlt : s.tlen.toNat < 85) :
    step s = .next (afterChange s).clockInputs :=
  (step_of_condition (r := .sampleChange) ⟨hr, hs, hk, hl⟩).trans (congrArg clockEdge (execSampleChange_of_lt hlt))

/-- A sample at REF below the saturating count is counted, and nothing else happens. -/
theorem step_measured (hl : s.inputs.lineIn = s.ref) (hc : s.cnt.toNat < 254) :
    ∃ t, step s = .next t ∧ Measured s 1 t := by
  refine ⟨_, step_sampleSame_count hr hs hk hl hc.ne, ?_⟩
  constructor <;> simp [hs, toNat_cntPlusOne (s := s) (by omega)]

end

/-- A stretch of samples at REF that stays below saturation only counts them. -/
theorem run_measured {s : State} {xs : List Inputs} {n : Nat} (hs : s.state = .sampling) (hf : Feeds s xs)
    (hr : NoReset xs) (hxs : samples xs = List.replicate n s.ref) (hn : s.cnt.toNat + n ≤ 254) :
    ∃ t, run xs.length s = .next t ∧ Measured s n t := by
  induction xs generalizing s n with
  | nil =>
    obtain rfl : n = 0 := by simpa [samples] using hxs
    exact ⟨s, rfl, .refl hs⟩
  | cons x xs ih =>
    obtain rfl := hf.head
    rw [samples_cons] at hxs
    cases hk : s.inputs.sampleTick with
    | false =>
      have hstep := step_sampleWait hr.head hs hk
      have hu : Measured s 0 s.clockInputs := by constructor <;> simp [hs]
      obtain ⟨t, ht, hm⟩ := ih hu.state (hf.step hstep) hr.tail (by simpa [hk] using hxs) (by simpa using hn)
      exact ⟨t, (run_succ_of_step hstep).trans ht, Nat.zero_add n ▸ hu.trans hm⟩
    | true =>
      cases n with
      | zero => simp [hk] at hxs
      | succ n =>
        obtain ⟨hl, hrest⟩ : s.inputs.lineIn = s.ref ∧ samples xs = List.replicate n s.ref := by
          simpa [hk, List.replicate_succ] using hxs
        obtain ⟨u, hstep, hu⟩ := step_measured hr.head hs hk hl (by omega)
        obtain ⟨t, ht, hm⟩ := ih hu.state (hf.step hstep) hr.tail (hu.ref ▸ hrest) (by rw [hu.cnt]; omega)
        exact ⟨t, (run_succ_of_step hstep).trans ht, Nat.add_comm n 1 ▸ hu.trans hm⟩

/-- Settles O37: the samples at REF are counted, and the sample after them is a change, one more, or the 255th. -/
theorem measurementRecordsItsSamples : Obligations.MeasurementRecordsItsSamples := by
  intro s xs x n hs hcnt htlen hf hr hxs hk hn
  obtain ⟨u, hu, hm⟩ := run_measured hs hf.left hr.left hxs (by simpa [hcnt] using hn)
  obtain rfl := (hf.run hu).head
  have hrst : u.inputs.rst = false := hr.right.head
  have hucnt : u.cnt.toNat = n := by simpa [hcnt] using hm.cnt
  by_cases hl : u.inputs.lineIn = u.ref
  · have href : u.inputs.lineIn = s.ref := hl.trans hm.ref
    rcases Nat.lt_or_eq_of_le hn with hlt | rfl
    · obtain ⟨t, ht, hm'⟩ := step_measured hrst hm.state hk hl (by omega)
      exact ⟨t, (run_succ_last hu).trans ht, fun hne => absurd href hne,
        fun _ _ => ⟨hm'.state, by rw [hm'.cnt, hucnt], hm'.trace.trans hm.trace⟩, fun _ heq => absurd heq hlt.ne⟩
    · have hstep := step_sampleSame_last hrst hm.state hk hl hucnt
      refine ⟨_, (run_succ_last hu).trans hstep, fun hne => absurd href hne, fun _ hlt => absurd hlt (by decide),
        fun _ _ => ?_⟩
      simp [hm.tlen, hm.trace, satMax_eq]
  · have hne : u.inputs.lineIn ≠ s.ref := hm.ref ▸ hl
    have hstep := step_sampleChange hrst hm.state hk hl (by rwa [hm.tlen])
    refine ⟨_, (run_succ_last hu).trans hstep, fun _ => ?_, fun heq => absurd heq hne, fun heq => absurd heq hne⟩
    have hrecorded : u.cnt = BitVec.ofNat 8 n := by rw [← hucnt, BitVec.ofNat_toNat, BitVec.setWidth_eq]
    simp [afterChange_eq, hm.trace, hm.tlen, hm.sat, hm.state, hrecorded]

/-! ### The end of an attempt under any pattern of strobes (R215, R217) -/

/-- The inputs of the coming cycles are `xs`, and none of them is a reset. -/
structure Undisturbed (s : State) (xs : List Inputs) : Prop where
  feeds : Feeds s xs
  noReset : NoReset xs

/-- Part of the first stretch used up, what is left of it and the rest are still to come. -/
theorem Undisturbed.after {s t : State} {xs rest : List Inputs} {m : Nat} (h : Undisturbed s (xs ++ rest))
    (hm : m ≤ xs.length) (ht : run m s = .next t) : Undisturbed t (xs.drop m ++ rest) := by
  obtain ⟨hf, hr⟩ := h
  rw [← List.take_append_drop m xs, List.append_assoc] at hf hr
  exact ⟨hf.run (by rwa [List.length_take_of_le hm]), hr.right⟩

theorem Undisturbed.left {s : State} {xs rest : List Inputs} (h : Undisturbed s (xs ++ rest)) : Undisturbed s xs :=
  ⟨h.feeds.left, h.noReset.left⟩

theorem Undisturbed.rst {s : State} {x : Inputs} {xs : List Inputs} (h : Undisturbed s (x :: xs)) :
    s.inputs.rst = false := by
  rw [h.feeds.head]
  exact h.noReset.head

theorem Undisturbed.step {s t : State} {x : Inputs} {xs : List Inputs} (h : Undisturbed s (x :: xs))
    (ht : step s = .next t) : Undisturbed t xs :=
  ⟨h.feeds.step ht, h.noReset.tail⟩

/-- A list with more than `k` elements that meet `p`, cut at the one that comes after `k` of them. -/
theorem exists_cut_of_lt_countP {α : Type} {p : α → Bool} {l : List α} {k : Nat} (h : k < l.countP p) :
    ∃ l₁ a l₂, l = l₁ ++ a :: l₂ ∧ l₁.countP p = k ∧ p a = true := by
  induction l generalizing k with
  | nil => exact absurd h (Nat.not_lt_zero k)
  | cons b l ih =>
    cases hb : p b with
    | false =>
      obtain ⟨l₁, a, l₂, rfl, hk, ha⟩ := ih (by simpa [hb] using h)
      exact ⟨b :: l₁, a, l₂, rfl, by simpa [hb] using hk, ha⟩
    | true =>
      cases k with
      | zero => exact ⟨[], b, l, rfl, rfl, hb⟩
      | succ k =>
        obtain ⟨l₁, a, l₂, rfl, hk, ha⟩ := ih (by simpa [hb] using h)
        exact ⟨b :: l₁, a, l₂, rfl, by simpa [hb] using hk, ha⟩

/-- A handshake state ends within any stretch that has its strobes. -/
theorem HandshakeState.ends {st after : AttemptState} {n : Nat} (h : HandshakeState st (n + 1) after) {s : State}
    {xs : List Inputs} (hs : s.state = st) (htcnt : s.tcnt = 0) (hu : Undisturbed s xs) (hxs : n + 1 ≤ usStrobes xs) :
    ∃ m t, m ≤ xs.length ∧ run m s = .next t ∧ t.state = after ∧ t.tcnt = 0 := by
  obtain ⟨ys, x, zs, rfl, hys, hx⟩ := exists_cut_of_lt_countP hxs
  rw [List.append_cons] at hu
  have h0 : s.tcnt.toNat = 0 := congrArg BitVec.toNat htcnt
  have hlast : s.tcnt.toNat + usStrobes ys + 1 = n + 1 := by rw [h0, usStrobes, hys, Nat.zero_add]
  obtain ⟨t, ht, hts, httcnt, -⟩ := h.run_last hs hu.left.feeds hu.left.noReset hlast hx
  exact ⟨ys.length + 1, t, by simp, ht, hts, httcnt⟩

/-- The handshake, through both of its states. -/
theorem handshake_ends {s : State} {lo hi rest : List Inputs} (hs : s.state = .hsLow) (htcnt : s.tcnt = 0)
    (hu : Undisturbed s (lo ++ hi ++ rest)) (hlo : 20000 ≤ usStrobes lo) (hhi : 40 ≤ usStrobes hi) :
    ∃ m t, m ≤ (lo ++ hi).length ∧ run m s = .next t ∧ t.state = .sampling := by
  obtain ⟨m, u, hm, hmu, hus, hutcnt⟩ := handshakeState_hsLow.ends hs htcnt hu.left.left hlo
  have hleft : 40 ≤ usStrobes (lo.drop m ++ hi) := by
    rw [usStrobes, List.countP_append]
    exact hhi.trans (Nat.le_add_left ..)
  obtain ⟨k, t, hk, hkt, hts, -⟩ := handshakeState_hsHigh.ends hus hutcnt (hu.left.after hm hmu) hleft
  refine ⟨m + k, t, ?_, (run_add hmu).trans hkt, hts⟩
  rw [List.length_append, List.length_drop] at hk
  rw [List.length_append]
  omega

namespace RunningValues

/-- DECODING ends in a done cycle when the entries that are left and the validation have had their cycles. -/
theorem decoding_ends {s : State} {xs : List Inputs} (h : RunningValues s) (hs : s.state = .decoding)
    (hu : Undisturbed s xs) (hxs : s.tlen.toNat < s.di.toNat + xs.length) :
    ∃ m t, s.di.toNat + m ≤ s.tlen.toNat + 1 ∧ run m s = .next t ∧ done t = true := by
  have hdile : s.di.toNat ≤ s.tlen.toNat := h.di_le
  have htlen : s.tlen.toNat ≤ 85 := h.tlen_le
  induction xs generalizing s with
  | nil => exact absurd hxs (Nat.not_lt.mpr hdile)
  | cons x xs ih =>
    by_cases hdi : s.di = s.tlen
    · obtain ⟨t, ht, hd⟩ := step_of_validate ⟨hu.rst, hs, hdi⟩
      exact ⟨1, t, by omega, (run_one s).trans ht, hd⟩
    · have hlt : s.di.toNat < s.tlen.toNat := h.di_lt hdi
      have hstep : step s = .next (afterEntry s).clockInputs :=
        (step_of_condition (r := .decodeEntry) ⟨hu.rst, hs, hdi⟩).trans
          (congrArg clockEdge (execDecodeEntry_of_lt (by omega)))
      obtain ⟨hstate, hnext, htl, -, -⟩ := afterEntry_frame s
      have hdi' : (afterEntry s).clockInputs.di.toNat = s.di.toNat + 1 := by
        rw [State.clockInputs_di, hnext, toNat_succ7 (by omega)]
      have htlen' : (afterEntry s).clockInputs.tlen = s.tlen := (State.clockInputs_tlen _).trans htl
      rw [List.length_cons] at hxs
      obtain ⟨m, t, hm, ht, hd⟩ := ih (h.of_step hstep) (by simpa [hstate] using hs) (hu.step hstep)
        (by rw [hdi', htlen']; omega) (by rw [hdi', htlen']; omega) (by rwa [htlen'])
      rw [hdi', htlen'] at hm
      exact ⟨m + 1, t, by omega, (run_succ_of_step hstep).trans ht, hd⟩

/-- From HS_LOW on, the strobes of the three phases and 86 more cycles lead to a done cycle. -/
theorem attempt_ends {s : State} {lo hi sm dec : List Inputs} (h : RunningValues s) (hs : s.state = .hsLow)
    (htcnt : s.tcnt = 0) (hu : Undisturbed s (lo ++ hi ++ sm ++ dec)) (hlo : 20000 ≤ usStrobes lo)
    (hhi : 40 ≤ usStrobes hi) (hsm : 21675 ≤ sampleStrobes sm) (hdec : 86 ≤ dec.length) :
    ∃ m t, m ≤ lo.length + hi.length + sm.length + 86 ∧ run m s = .next t ∧ done t = true := by
  obtain ⟨m, u, hm, hmu, hus⟩ := handshake_ends hs htcnt hu.left hlo hhi
  have hku : RunningValues u := h.of_run hmu
  have hu' : Undisturbed u ((lo ++ hi).drop m ++ sm ++ dec) := by
    rw [List.append_assoc] at hu ⊢
    exact hu.after hm hmu
  have hstrobes : 21675 ≤ samplesSpent u + sampleStrobes ((lo ++ hi).drop m ++ sm) := by
    rw [sampleStrobes, List.countP_append, ← sampleStrobes, ← sampleStrobes]
    omega
  obtain ⟨ys, v, hys, -, hv, hvs, -⟩ := hku.sampling_ends hus hu'.left.feeds hu'.left.noReset hstrobes
  have hkv : RunningValues v := hku.of_run hv
  have htlen : v.tlen.toNat ≤ 85 := hkv.tlen_le
  obtain ⟨k, t, hk, ht, hd⟩ := hkv.decoding_ends hvs (hu'.after hys.length_le hv)
    (by rw [List.length_append]; omega)
  have hlen := hys.length_le
  simp only [List.length_append, List.length_drop] at hm hlen
  exact ⟨m + (ys.length + k), t, by omega, (run_add hmu).trans ((run_add hv).trans ht), hd⟩

/-- An attempt in progress stays so, or is done. -/
theorem step_not_idle {s t : State} (h : RunningValues s) (hr : s.inputs.rst = false) (hs : s.state ≠ .idle)
    (hd : done s = false) (ht : step s = .next t) : t.state ≠ .idle := by
  have hnot : ¬ (s.state = .success ∨ s.state = .failure) := by rw [← done_iff, hd]; decide
  have hmem : t.state ∈ successors s.state := step_state_mem_successors hr ht
  intro hidle
  rw [hidle] at hmem
  cases hst : s.state with
  | idle => exact hs hst
  | unused => exact h.legal hst
  | success => exact hnot (.inl hst)
  | failure => exact hnot (.inr hst)
  | _ => rw [hst] at hmem; exact absurd hmem (by decide)

/-- If an attempt in progress gets to a done cycle, there is a first one, and every cycle before it is in progress. -/
theorem first_done {n : Nat} {s t : State} {xs : List Inputs} (h : RunningValues s) (hs : s.state ≠ .idle)
    (hu : Undisturbed s xs) (hn : n ≤ xs.length) (ht : run n s = .next t) (hd : done t = true) :
    ∃ d v, d ≤ n ∧ run d s = .next v ∧ done v = true ∧
      ∀ k < d, ∃ u, run k s = .next u ∧ busy u = true ∧ done u = false := by
  induction n generalizing s xs with
  | zero => exact ⟨0, t, le_rfl, ht, hd, nofun⟩
  | succ n ih =>
    cases hds : done s with
    | true => exact ⟨0, s, Nat.zero_le _, rfl, hds, nofun⟩
    | false =>
      obtain ⟨x, xs, rfl⟩ := List.exists_cons_of_length_pos (Nat.zero_lt_of_lt hn)
      obtain ⟨u, hstep, hku⟩ := h.step_next
      obtain ⟨d, v, hdn, hv, hdv, hbefore⟩ := ih hku (h.step_not_idle hu.rst hs hds hstep) (hu.step hstep)
        (Nat.le_of_succ_le_succ hn) ((run_succ_of_step hstep).symm.trans ht)
      refine ⟨d + 1, v, Nat.succ_le_succ hdn, (run_succ_of_step hstep).trans hv, hdv, fun k hk => ?_⟩
      cases k with
      | zero => exact ⟨s, rfl, (busy_iff s).mpr hs, hds⟩
      | succ k =>
        rw [run_succ_of_step hstep]
        exact hbefore k (Nat.lt_of_succ_lt_succ hk)

end RunningValues

theorem run_succ_outcomeFits {n : Nat} {s t : State} (h : run (n + 1) s = .next t) : OutcomeFits t := by
  obtain ⟨u, -, hu⟩ := run_prefix h
  exact step_outcomeFits ((run_one u).symm.trans hu)

/-- Settles O43: each phase ends within its stretch, so that there is a first done cycle. -/
theorem everyAttemptEndsGivenItsStrobes : Obligations.EveryAttemptEndsGivenItsStrobes := by
  intro s x lo hi sm dec hs hstart hf hr hlo hhi hsm hdec
  have hu : Undisturbed s (x :: (lo ++ hi ++ sm ++ dec)) := ⟨hf, hr⟩
  obtain rfl := hf.head
  have hbegin : step s = .next s.beginAttempt.clockInputs := step_of_start hs hu.rst hstart
  have hvalues : RunningValues s.beginAttempt.clockInputs := (runningValues_beginAttempt s).clockInputs
  obtain ⟨m, t, hm, ht, hd⟩ := hvalues.attempt_ends (by simp) (by simp) (hu.step hbegin) hlo hhi hsm hdec
  obtain ⟨d, v, hdm, hv, hdv, hbefore⟩ := hvalues.first_done (by simp) (hu.step hbegin)
    (by simp only [List.length_append]; omega) ht hd
  have hrun : run (d + 1) s = .next v := (run_succ_of_step hbegin).trans hv
  obtain ⟨hsuccess, hfailure⟩ := run_succ_outcomeFits hrun
  refine ⟨d + 1, v, by omega, hrun, hdv, hsuccess, hfailure, fun k hk hkd => ?_⟩
  obtain ⟨j, rfl⟩ := Nat.exists_eq_add_of_le hk
  rw [Nat.add_comm, run_succ_of_step hbegin]
  exact hbefore j (by omega)

/-! ### Independence of the past (R243) -/

/-- A new attempt forgets all that it reads: TRACE counts for nothing while TLEN is 0. -/
theorem sameAttempt_beginAttempt {s t : State} (hi : s.inputs = t.inputs) (hq : s.stimulus = t.stimulus)
    (hd : s.draws = t.draws) : SameAttempt s.beginAttempt t.beginAttempt :=
  ⟨rfl, rfl, rfl, rfl, rfl, rfl, rfl, rfl, rfl, rfl, hi, hq, hd⟩

theorem read_of_pulseTrace_eq {s t : State} {i : Nat} (h : pulseTrace s = pulseTrace t) (hi : i < s.tlen.toNat)
    (htlen : s.tlen = t.tlen) : Memory.read s.trace i = Memory.read t.trace i :=
  List.map_inj_left.mp (by simpa only [pulseTrace, ← htlen] using h) i (List.mem_range.mpr hi)

namespace SameAttempt

variable {s t : State} (h : SameAttempt s t)
include h

theorem goto (st : AttemptState) : SameAttempt (s.goto st) (t.goto st) := { h with state := rfl }

theorem setTcnt (v : BitVec 15) : SameAttempt (s.setTcnt v) (t.setTcnt v) := { h with tcnt := rfl }

theorem setCnt (v : BitVec 8) : SameAttempt (s.setCnt v) (t.setCnt v) := { h with cnt := rfl }

theorem saturate : SameAttempt s.saturate t.saturate := { h with state := rfl, cnt := rfl, sat := rfl }

theorem nextEntry : SameAttempt s.nextEntry t.nextEntry := { h with di := congrArg (· + 1#7) h.di }

theorem appendBit (b : Bool) : SameAttempt (s.appendBit b) (t.appendBit b) :=
  { h with shift := congrArg (shiftIn · b) h.shift, nbits := congrArg (· + 1#6) h.nbits }

theorem publish (st : AttemptState) (o o' : DecodeOutcome) (hi hf ti tf hi' hf' ti' tf' : Byte) (now now' : Timestamp) :
    SameAttempt (s.publish st o hi hf ti tf now) (t.publish st o' hi' hf' ti' tf' now') :=
  { h with state := rfl }

theorem recordTransition (htlen : s.tlen.toNat < 127) (l : Level) :
    SameAttempt (s.recordTransition l) (t.recordTransition l) where
  __ := h
  tlen := congrArg (· + 1#7) h.tlen
  ref := rfl
  cnt := rfl
  entries := by
    rw [pulseTrace_recordTransition s l htlen, pulseTrace_recordTransition t l (h.tlen ▸ htlen), h.entries, h.cnt]

theorem resetRegisters : SameAttempt s.resetRegisters t.resetRegisters :=
  ⟨rfl, rfl, rfl, rfl, rfl, rfl, rfl, rfl, rfl, rfl, h.inputs, h.stimulus, h.draws⟩

theorem clockInputs : SameAttempt s.clockInputs t.clockInputs := by
  have hdraws : s.draws + 1 = t.draws + 1 := congrArg (· + 1) h.draws
  unfold State.clockInputs
  rw [← h.stimulus]
  cases s.stimulus with
  | nil => exact { h with inputs := congrArg Config.freeInputs h.draws, stimulus := rfl, draws := hdraws }
  | cons x xs => exact { h with inputs := rfl, stimulus := rfl, draws := hdraws }

theorem handshakeTick (n : Nat) (after : AttemptState) :
    SameAttempt (handshakeTick n after s) (handshakeTick n after t) := by
  have hnext : tcntPlusOne s = tcntPlusOne t := by rw [tcntPlusOne, tcntPlusOne, h.tcnt, h.draws]
  unfold Machine.handshakeTick
  rw [h.tcnt, hnext]
  split
  · exact (h.goto after).setTcnt _
  · exact h.setTcnt _

theorem execSampleSame : ∃ u v, execSampleSame s = .next u ∧ execSampleSame t = .next v ∧ SameAttempt u v := by
  have hnext : cntPlusOne s = cntPlusOne t := by rw [cntPlusOne, cntPlusOne, h.cnt, h.draws]
  by_cases hc : s.cnt.toNat = 254
  · exact ⟨_, _, execSampleSame_last hc, execSampleSame_last (h.cnt ▸ hc), h.saturate⟩
  · exact ⟨_, _, execSampleSame_count hc, execSampleSame_count (h.cnt ▸ hc), hnext ▸ h.setCnt _⟩

theorem afterChange (htlen : s.tlen.toNat < 85) : SameAttempt (afterChange s) (afterChange t) := by
  have hrecord := h.recordTransition (by omega) s.inputs.lineIn
  unfold Machine.afterChange
  rw [← h.tlen, ← h.inputs]
  split
  · exact hrecord.goto .decoding
  · exact hrecord

/-- The entry at DI is one of the attempt's own, so both read the same bit. -/
theorem afterEntry (hdi : s.di.toNat < s.tlen.toNat) : SameAttempt (afterEntry s) (afterEntry t) := by
  have hread : Memory.read s.trace s.di.toNat = Memory.read t.trace s.di.toNat :=
    read_of_pulseTrace_eq h.entries hdi h.tlen
  unfold Machine.afterEntry
  rw [← h.di, ← h.nbits, hread]
  split
  · exact (h.appendBit _).nextEntry
  · exact h.nextEntry

/-- A validation reads NBITS, SHIFT, SAT and `wallclock` alone, so both publish the same result. -/
theorem execValidate :
    ∃ u v, execValidate s = .next u ∧ execValidate t = .next v ∧ SameAttempt u v ∧ resultOf u = resultOf v := by
  rcases Nat.lt_or_ge s.nbits.toNat 40 with hfew | hfull
  · refine ⟨_, _, execValidate_of_few hfew, execValidate_of_few (h.nbits ▸ hfew), h.publish .., ?_⟩
    simp [resultOf, State.publishFailure, h.sat]
  by_cases hc : checksumOk s.shift = true
  · refine ⟨_, _, execValidate_of_pass hfull hc, execValidate_of_pass (h.nbits ▸ hfull) (h.shift ▸ hc),
      h.publish .., ?_⟩
    simp [resultOf, State.publishSuccess, h.sat, h.shift, h.inputs]
  · refine ⟨_, _, execValidate_of_mismatch hfull hc, execValidate_of_mismatch (h.nbits ▸ hfull) (h.shift ▸ hc),
      h.publish .., ?_⟩
    simp [resultOf, State.publishFailure, h.sat]

theorem cycleRow_eq : cycleRow s = cycleRow t := by
  unfold cycleRow
  rw [h.inputs, h.state, h.ref, h.di, h.tlen]

/-- Each rule takes the two machines on together. -/
theorem rowMeaning {r : Row} (hk : RunningValues s) (hc : RowCondition s r) :
    ∃ u v, rowMeaning r s = .next u ∧ rowMeaning r t = .next v ∧ SameAttempt u v := by
  cases r with
  | reset => exact ⟨_, _, rfl, rfl, h.resetRegisters⟩
  | attemptRead => exact ⟨_, _, rfl, rfl, sameAttempt_beginAttempt h.inputs h.stimulus h.draws⟩
  | idleWait | hsLowWait | hsHighWait | sampleWait => exact ⟨_, _, rfl, rfl, h⟩
  | hsLowTick | hsHighTick => exact ⟨_, _, rfl, rfl, h.handshakeTick _ _⟩
  | sampleSame => exact h.execSampleSame
  | sampleChange =>
    obtain ⟨-, hs, -, -⟩ := hc
    have htlen : s.tlen.toNat < 85 := (hk.room (.inr (.inr hs))).1
    exact ⟨_, _, execSampleChange_of_lt htlen, execSampleChange_of_lt (h.tlen ▸ htlen), h.afterChange htlen⟩
  | decodeEntry =>
    obtain ⟨-, -, hne⟩ := hc
    have hdi : s.di.toNat < s.tlen.toNat := hk.di_lt hne
    have hdi85 : s.di.toNat < 85 := Nat.lt_of_lt_of_le hdi hk.tlen_le
    exact ⟨_, _, execDecodeEntry_of_lt hdi85, execDecodeEntry_of_lt (h.di ▸ hdi85), h.afterEntry hdi⟩
  | validate =>
    obtain ⟨u, v, hu, hv, huv, -⟩ := h.execValidate
    exact ⟨u, v, hu, hv, huv⟩
  | successDone | failureDone | unusedState => exact ⟨_, _, rfl, rfl, h.goto .idle⟩

/-- Each step takes the two machines on together, and a done cycle that it leads to shows the same result. -/
theorem step (hk : RunningValues s) :
    ∃ u v, step s = .next u ∧ step t = .next v ∧ SameAttempt u v ∧ (done u = true → resultOf u = resultOf v) := by
  obtain ⟨u, v, hu, hv, huv⟩ := h.rowMeaning hk (rowCondition_cycleRow s)
  have hsu : Machine.step s = .next u.clockInputs := step_of_rowMeaning hu
  refine ⟨_, _, hsu, step_of_rowMeaning (h.cycleRow_eq ▸ hv), huv.clockInputs, fun hd => ?_⟩
  rw [cycleRow_eq_of_condition (validate_of_step_done hsu hd)] at hu hv
  obtain ⟨u', v', hu', hv', -, hresult⟩ := h.execValidate
  rw [Machine.rowMeaning, hu'] at hu
  rw [Machine.rowMeaning, hv'] at hv
  cases hu
  cases hv
  rwa [resultOf_clockInputs, resultOf_clockInputs]

/-- And so does each run. -/
theorem run (n : Nat) (hk : RunningValues s) (hresult : done s = true → resultOf s = resultOf t) :
    ∃ u v, run n s = .next u ∧ run n t = .next v ∧ SameAttempt u v ∧ (done u = true → resultOf u = resultOf v) := by
  induction n generalizing s t with
  | zero => exact ⟨s, t, rfl, rfl, h, hresult⟩
  | succ n ih =>
    obtain ⟨s', t', hs, ht, h', hresult'⟩ := h.step hk
    obtain ⟨u, v, hu, hv, huv⟩ := ih h' (hk.of_step hs) hresult'
    exact ⟨u, v, (run_succ_of_step hs).trans hu, (run_succ_of_step ht).trans hv, huv⟩

end SameAttempt

/-- Settles O44: ATTEMPT_READ makes the two machines agree, and every step keeps them so. -/
theorem attemptsAreIndependentOfThePast : Obligations.AttemptsAreIndependentOfThePast := by
  intro s t n hs ht hi hq hdraws hstart hr
  have hbegin : SameAttempt s.beginAttempt.clockInputs t.beginAttempt.clockInputs :=
    (sameAttempt_beginAttempt hi hq hdraws).clockInputs
  obtain ⟨u, v, hu, hv, huv⟩ := hbegin.run n (runningValues_beginAttempt s).clockInputs (by simp [done])
  exact ⟨u, v, (run_succ_of_step (step_of_start hs hr hstart)).trans hu,
    (run_succ_of_step (step_of_start ht (hi ▸ hr) (hi ▸ hstart))).trans hv, huv⟩

end Sys2Proof.Machine
